-- ==== Sys2Proof/Word.lean ====
section
/-! DEFINITION. The word types of PSYN-CORE: the event word, its fields and the register widths
(spec 30_encoding.md R80, 10_state.md R32 to R45). -/

namespace Sys2Proof

/-- One event word (30_encoding.md R80). -/
abbrev Word := BitVec 32

/-- A 16-bit register, VALUE field or sample (30_encoding.md R84, R90; 10_state.md R32 to R36, R43 to R45). -/
abbrev Half := BitVec 16

/-- An 8-bit register, or one byte of a transport (10_state.md R37, R38; 20_memory.md R64). -/
abbrev Byte := BitVec 8

/-- A 4-bit field: a channel index or a KIND code (30_encoding.md R81, R83). -/
abbrev Nibble := BitVec 4

end Sys2Proof
end

