-- ==== Sys2Proof/Syntax.lean ====
section
/-! DEFINITION. The operations of spec/opcode_table.json, one constructor a row. A constructor carries
the fields its kind reads and no others: CHAN and VALUE for the per-voice kinds, VALUE for Time, Enable
and Mute, nothing for End and TICK (30_encoding.md R83, R84, R87; log entry 13). -/

namespace Sys2Proof

/-- The twelve event kinds, the unrecognised kinds and TICK (30_encoding.md R85, R86, R88). -/
inductive Instr where
  /-- End, KIND 0 (40_event_dispatcher.md R106). -/
  | endEvt
  /-- Time, KIND 1 (40_event_dispatcher.md R107). -/
  | time (count : Half)
  /-- Enable, KIND 2 (40_event_dispatcher.md R108). -/
  | enable (mask : Half)
  /-- Mute, KIND 3 (40_event_dispatcher.md R109). -/
  | mute (mask : Half)
  /-- SetFrequency, KIND 4 (41_voice_events.md R121). -/
  | setFrequency (chan : Nibble) (value : Half)
  /-- FrequencyStep, KIND 5 (41_voice_events.md R122). -/
  | frequencyStep (chan : Nibble) (value : Half)
  /-- PhaseModSource, KIND 6 (41_voice_events.md R123). -/
  | phaseModSource (chan : Nibble) (value : Half)
  /-- SetAmplitude, KIND 7 (41_voice_events.md R124). -/
  | setAmplitude (chan : Nibble) (value : Half)
  /-- AmplitudeStep, KIND 8 (41_voice_events.md R125). -/
  | amplitudeStep (chan : Nibble) (value : Half)
  /-- AmplitudeModSource, KIND 9 (41_voice_events.md R126). -/
  | amplitudeModSource (chan : Nibble) (value : Half)
  /-- AmplitudeScale, KIND 10 (41_voice_events.md R127). -/
  | amplitudeScale (chan : Nibble) (value : Half)
  /-- StepInterval, KIND 11 (41_voice_events.md R128). -/
  | stepInterval (chan : Nibble) (value : Half)
  /-- A word whose KIND, kept here, names no kind (30_encoding.md R86); well-formed for 12..15 only. -/
  | unrecognised (kind : Nibble)
  /-- TICK, the request on the sample port; it has no event word (30_encoding.md R88). -/
  | tick
deriving DecidableEq, Repr

end Sys2Proof
end

