-- ==== Sys2Proof/WellFormed.lean ====
section
/-! DEFINITION. Which terms of `Instr` stand for an operation of the block. Every operand's range is
its type's, but for the KIND of an unrecognised word (30_encoding.md R86). -/

namespace Sys2Proof

/-- An unrecognised word has its KIND in 12..15 (30_encoding.md R86); every other term is an operation. -/
def Instr.wellFormed : Instr → Bool
  | .unrecognised kind => decide (12 ≤ kind.toNat)
  | .endEvt => true
  | .time _ => true
  | .enable _ => true
  | .mute _ => true
  | .setFrequency _ _ => true
  | .frequencyStep _ _ => true
  | .phaseModSource _ _ => true
  | .setAmplitude _ _ => true
  | .amplitudeStep _ _ => true
  | .amplitudeModSource _ _ => true
  | .amplitudeScale _ _ => true
  | .stepInterval _ _ => true
  | .tick => true

end Sys2Proof
end

