-- ==== Sys2Proof/Decode.lean ====
section
/-! DEFINITION. The fields of the event word, the decoder (total on every word), the transport's byte
order, and the encoder written from the same table (spec 30_encoding.md R80 to R88, R91; 20_memory.md
R64). -/

namespace Sys2Proof

/-- KIND = w[31:28] (30_encoding.md R81). -/
def kindField (w : Word) : Nibble := w.extractLsb' 28 4

/-- CHAN = w[27:24] (30_encoding.md R83). -/
def chanField (w : Word) : Nibble := w.extractLsb' 24 4

/-- RSVD = w[23:16], which nothing of the block reads (30_encoding.md R82). -/
def rsvdField (w : Word) : Byte := w.extractLsb' 16 8

/-- VALUE = w[15:0] (30_encoding.md R84). -/
def valueField (w : Word) : Half := w.extractLsb' 0 16

/-- The operation an event word stands for: KIND selects it by the table of 30_encoding.md R85; 12..15
name no kind (R86); RSVD is ignored (R82); no word is TICK (R88). -/
def decodeWord (w : Word) : Instr :=
  match (kindField w).toNat with
  | 0 => .endEvt
  | 1 => .time (valueField w)
  | 2 => .enable (valueField w)
  | 3 => .mute (valueField w)
  | 4 => .setFrequency (chanField w) (valueField w)
  | 5 => .frequencyStep (chanField w) (valueField w)
  | 6 => .phaseModSource (chanField w) (valueField w)
  | 7 => .setAmplitude (chanField w) (valueField w)
  | 8 => .amplitudeStep (chanField w) (valueField w)
  | 9 => .amplitudeModSource (chanField w) (valueField w)
  | 10 => .amplitudeScale (chanField w) (valueField w)
  | 11 => .stepInterval (chanField w) (valueField w)
  | _ => .unrecognised (kindField w)

/-- Why a transport's bytes hold no event. -/
inductive DecodeError where
  /-- Fewer than the four bytes of an event word are there (30_encoding.md R91). Raised by
  `wordOfBytes` alone; safe: the engine never sees such bytes. -/
  | truncatedWord
deriving DecidableEq, Repr

/-- The four bytes of a word as a transport sends them, bits 7:0 first (20_memory.md R64). -/
def bytesOfWord (w : Word) : List Byte :=
  [w.extractLsb' 0 8, w.extractLsb' 8 8, w.extractLsb' 16 8, w.extractLsb' 24 8]

/-- The next event word of a byte transport and the bytes after it: the byte holding bits 7:0 comes first
(20_memory.md R64), and every event is four bytes (30_encoding.md R91). -/
def wordOfBytes : List Byte → Except DecodeError (Word × List Byte)
  | b0 :: b1 :: b2 :: b3 :: rest => .ok (b3 ++ b2 ++ b1 ++ b0, rest)
  | _ => .error .truncatedWord

/-- The next event of a byte transport and the bytes after it. -/
def decodeBytes (bytes : List Byte) : Except DecodeError (Instr × List Byte) :=
  match wordOfBytes bytes with
  | .ok (w, rest) => .ok (decodeWord w, rest)
  | .error e => .error e

/-- The operation of a table row whose `nbits` bits are `w`: an operation with no bits is TICK, which has
no word (30_encoding.md R88, R91; log entry 10); every other is one 32-bit word, its bits above `nbits`
zero, stored as a transport's bytes and decoded; no operation is longer (R91; log entry 11). -/
def decodeTableWord (nbits w : Nat) : Option Instr :=
  if nbits = 0 then some .tick
  else if nbits ≤ 32 then
    match decodeBytes (bytesOfWord (BitVec.ofNat 32 (w % 2 ^ nbits))) with
    | .ok (i, _) => some i
    | .error _ => none
  else none

/-- The word with the given fields and RSVD = 0, as software writes it (30_encoding.md R80, R82). -/
def eventWord (kind chan : Nibble) (value : Half) : Word := kind ++ chan ++ (0 : Byte) ++ value

/-- The event word of an operation: KIND of 30_encoding.md R85, the fields the kind reads, and 0 in the
fields it ignores. TICK has none (R88). -/
def encode : Instr → Option Word
  | .endEvt => some (eventWord 0 0 0)
  | .time count => some (eventWord 1 0 count)
  | .enable mask => some (eventWord 2 0 mask)
  | .mute mask => some (eventWord 3 0 mask)
  | .setFrequency chan value => some (eventWord 4 chan value)
  | .frequencyStep chan value => some (eventWord 5 chan value)
  | .phaseModSource chan value => some (eventWord 6 chan value)
  | .setAmplitude chan value => some (eventWord 7 chan value)
  | .amplitudeStep chan value => some (eventWord 8 chan value)
  | .amplitudeModSource chan value => some (eventWord 9 chan value)
  | .amplitudeScale chan value => some (eventWord 10 chan value)
  | .stepInterval chan value => some (eventWord 11 chan value)
  | .unrecognised kind => some (eventWord kind 0 0)
  | .tick => none

end Sys2Proof
end

