-- ==== Sys2Proof/Machine/Arith.lean ====
section
/-! DEFINITION. The integer operators of 00_scope.md R15. `div` and `mod` by a positive number are Lean's
`/` and `%` on `Int`, which floor and are never negative. -/

namespace Sys2Proof.Machine

/-- `clamp(v, lo, hi)` (00_scope.md R15). -/
def clamp (v lo hi : Int) : Int := if v < lo then lo else if hi < v then hi else v

/-- `sat16(v)`, the signed 16-bit range (00_scope.md R15). -/
def sat16 (v : Int) : Int := clamp v (-32768) 32767

/-- `asr(v, s)` = floor(v / 2^s) (00_scope.md R15; log entry 18). -/
def asr (v : Int) (s : Nat) : Int := v / 2 ^ s

/-- `sext` of a 16-bit field (00_scope.md R14; log entry 18). -/
def sext (v : Half) : Int := v.toInt

/-- `zext` of a field (00_scope.md R14). -/
def zext (v : BitVec n) : Int := (v.toNat : Int)

end Sys2Proof.Machine
end

