-- ==== Sys2Proof/Config.lean ====
section
/-! DEFINITION. What an implementation fixes at construction (00_scope.md R7 to R10, R12), the reference
table LUT_REF (42_sine_approximator.md R147), and the free values of the spec as constants without a body
(00_scope.md R11, 70_reset_and_hazards.md R225). -/

namespace Sys2Proof

/-- The construction-time parameters but for N, which is the length of the voice file (log entry 1). -/
structure Config where
  /-- SAMPLE_RATE, samples per second (00_scope.md R8). -/
  sampleRate : Nat
  /-- MAX_FREQUENCY, the bound of the frequency ramp, 0..65535 (00_scope.md R9). -/
  maxFrequency : Half
  /-- SINE_LUT, the quarter-wave table (00_scope.md R10). -/
  sineLut : List Nat
deriving DecidableEq, Repr

/-- SAMPLE_RATE in 1..2^32-1 and a table of 360 entries in 0..254 (00_scope.md R8, R10;
70_reset_and_hazards.md R223). MAX_FREQUENCY is in range by its type. -/
def Config.valid (cfg : Config) : Bool :=
  decide (1 ≤ cfg.sampleRate) && decide (cfg.sampleRate ≤ 2 ^ 32 - 1) &&
    decide (cfg.sineLut.length = 360) && cfg.sineLut.all fun m => decide (m ≤ 254)

/-- N in 1..16 (00_scope.md R7). -/
def Config.validCount (n : Nat) : Bool := decide (1 ≤ n) && decide (n ≤ 16)

/-- FREE VALUE: the `k`-th noise draw since the model's counter was 0, nine bits read as signed, so any
value of -256..255 and nothing more is known of it (00_scope.md R11; log entry 7). -/
opaque Config.noiseDraw : Nat → BitVec 9

/-- FREE VALUE: whether the `k`-th APPLY presented together with a TICK is taken first
(70_reset_and_hazards.md R225; log entry 8). -/
opaque Config.applyFirst : Nat → Bool

/-- LUT_REF (42_sine_approximator.md R147), twenty entries a row as the spec tabulates it. -/
def Config.lutRef : List Nat :=
  [0, 1, 2, 3, 4, 6, 7, 8, 9, 10, 11, 12, 13, 14, 16, 17, 18, 19, 20, 21] ++
  [22, 23, 24, 25, 27, 28, 29, 30, 31, 32, 33, 34, 35, 36, 38, 39, 40, 41, 42, 43] ++
  [44, 45, 46, 47, 48, 50, 51, 52, 53, 54, 55, 56, 57, 58, 59, 60, 61, 63, 64, 65] ++
  [66, 67, 68, 69, 70, 71, 72, 73, 74, 75, 76, 77, 78, 80, 81, 82, 83, 84, 85, 86] ++
  [87, 88, 89, 90, 91, 92, 93, 94, 95, 96, 97, 98, 99, 100, 101, 102, 103, 104, 105, 106] ++
  [107, 108, 109, 110, 111, 112, 113, 114, 115, 116, 117, 118, 119, 120, 121, 122, 123, 124, 125, 126] ++
  [127, 128, 129, 130, 131, 132, 133, 134, 135, 136, 136, 137, 138, 139, 140, 141, 142, 143, 144, 145] ++
  [146, 147, 147, 148, 149, 150, 151, 152, 153, 154, 155, 156, 156, 157, 158, 159, 160, 161, 162, 162] ++
  [163, 164, 165, 166, 167, 167, 168, 169, 170, 171, 172, 172, 173, 174, 175, 176, 176, 177, 178, 179] ++
  [180, 180, 181, 182, 183, 183, 184, 185, 186, 187, 187, 188, 189, 189, 190, 191, 192, 192, 193, 194] ++
  [195, 195, 196, 197, 197, 198, 199, 199, 200, 201, 202, 202, 203, 204, 204, 205, 205, 206, 207, 207] ++
  [208, 209, 209, 210, 211, 211, 212, 212, 213, 214, 214, 215, 215, 216, 217, 217, 218, 218, 219, 219] ++
  [220, 221, 221, 222, 222, 223, 223, 224, 224, 225, 225, 226, 226, 227, 227, 228, 228, 229, 229, 230] ++
  [230, 231, 231, 232, 232, 232, 233, 233, 234, 234, 235, 235, 236, 236, 236, 237, 237, 238, 238, 238] ++
  [239, 239, 239, 240, 240, 241, 241, 241, 242, 242, 242, 243, 243, 243, 244, 244, 244, 244, 245, 245] ++
  [245, 246, 246, 246, 246, 247, 247, 247, 247, 248, 248, 248, 248, 249, 249, 249, 249, 250, 250, 250] ++
  [250, 250, 251, 251, 251, 251, 251, 251, 252, 252, 252, 252, 252, 252, 252, 252, 253, 253, 253, 253] ++
  [253, 253, 253, 253, 253, 253, 254, 254, 254, 254, 254, 254, 254, 254, 254, 254, 254, 254, 254, 254]

/-- The parameters of the spec's test vectors: SAMPLE_RATE 32000, MAX_FREQUENCY 16000, LUT_REF
(95_test_vectors.md, opening); DESIGN CHOICE as the configuration of `State.reset` (log entry 2). -/
def Config.reference : Config :=
  { sampleRate := 32000, maxFrequency := 16000, sineLut := Config.lutRef }

end Sys2Proof
end

