-- ==== Sys2Proof/Machine/State.lean ====
section
/-! DEFINITION. The state of PSYN-CORE: the voice file and the three global registers (10_state.md R30
to R46), its configuration, and the model's own fields for the host's operations, the observation and
the free values (INVENTORY.md, State). -/

namespace Sys2Proof.Machine

/-- One entry of the voice file (10_state.md R31 to R41). Signed registers are held as their bits. -/
structure Voice where
  /-- `last_sample`, s16 (R32). -/
  lastSample : Half
  /-- `time`, u16 (R33). -/
  time : Half
  /-- `frequency`, u16 (R34). -/
  frequency : Half
  /-- `frequency_step`, s16 (R35). -/
  frequencyStep : Half
  /-- `step_interval`, u16 (R36). -/
  stepInterval : Half
  /-- `amplitude`, u8 (R37). -/
  amplitude : Byte
  /-- `amplitude_step`, s8 (R38). -/
  amplitudeStep : Byte
  /-- `amplitude_scale`, 0..31 (R39). -/
  amplitudeScale : BitVec 5
  /-- `pm_en` (R40). -/
  pmEn : Bool
  /-- `pm_src`, u4 (R40). -/
  pmSrc : Nibble
  /-- `am_en` (R41). -/
  amEn : Bool
  /-- `am_src`, u4 (R41). -/
  amSrc : Nibble
deriving DecidableEq, Repr

/-- The status an APPLY returns (30_encoding.md R89, 60_exceptions.md R201). -/
inductive Status where
  /-- The event was applied. -/
  | ok
  /-- Unrecognised kind. -/
  | invalidEvent
  /-- Amplitude scale above 31. -/
  | outOfRange
  /-- A gated event while Running. -/
  | busy
  /-- A channel or a modulation source at or above N. -/
  | invalidChannel
deriving DecidableEq, Repr

/-- What the block gives the host at the end of an operation (00_scope.md R5, 70_reset_and_hazards.md R231). -/
inductive Response where
  /-- The status of an APPLY. -/
  | status (st : Status)
  /-- The sample of a TICK, two's complement (30_encoding.md R90). -/
  | sample (value : Half)
deriving DecidableEq, Repr

/-- An operation offered while the reset input is asserted (70_reset_and_hazards.md R220). -/
inductive Offer where
  /-- APPLY of a word. -/
  | apply (w : Word)
  /-- TICK. -/
  | tick
deriving DecidableEq, Repr

/-- One operation of the host (70_reset_and_hazards.md R231). -/
inductive HostOp where
  /-- APPLY of an event word (40_event_dispatcher.md R100). -/
  | apply (w : Word)
  /-- TICK (44_sample_producer.md R180). -/
  | tick
  /-- The reset input asserted and released, and what the host offered in between, none of which the block
  accepts (70_reset_and_hazards.md R220; log entry 6). -/
  | rst (offered : List Offer)
  /-- An APPLY and a TICK presented at the same instant (70_reset_and_hazards.md R225; log entry 8). -/
  | together (w : Word)
deriving DecidableEq, Repr

/-- The faults of the block: none. No operation of PSYN-CORE faults or hangs (60_exceptions.md R205,
93_implementation_defined.md Part 1), so the type has no constructor. -/
inductive Fault where
deriving DecidableEq, Repr

/-- The refusals of the model. -/
inductive Refusal where
  /-- Raised by `exec`'s arms alone, for an instruction that has no meaning yet; safe. No arm of this model
  raises it. -/
  | notModelled (mnemonic : String)
  /-- Raised by `construct` alone: the configuration breaks a bound of 00_scope.md R7 to R10 and no engine
  exists (R17, 70_reset_and_hazards.md R223); safe. -/
  | invalidConfiguration
deriving DecidableEq, Repr

/-- The machine. The first four fields are the spec's architectural state (10_state.md R30); `config` is
its constant configuration (00_scope.md R12, log entry 1); the rest are the model's own (INVENTORY.md). -/
structure State where
  /-- The voice file `V[0..N-1]`; its length is N (10_state.md R31, 00_scope.md R7). -/
  voices : List Voice
  /-- `G.enabled_mask` (R43). -/
  enabledMask : Half
  /-- `G.muted_mask` (R44). -/
  mutedMask : Half
  /-- `G.remaining_samples` (R45). -/
  remaining : Half
  /-- The construction-time parameters, immutable (00_scope.md R12). -/
  config : Config
  /-- The operations the host has still to present, oldest first (10_state.md R48; log entry 3). -/
  host : List HostOp
  /-- The statuses and samples given so far, oldest first (70_reset_and_hazards.md R231; log entry 5). -/
  responses : List Response
  /-- The index of the next free noise draw (00_scope.md R11; log entry 7). -/
  noiseDraws : Nat
  /-- The index of the next free order of an APPLY and a TICK presented together (log entry 8). -/
  arbitrations : Nat
deriving DecidableEq, Repr

/-- What an operation of the block ends in. -/
abbrev Result := Host.Outcome State Fault Refusal

/-- The reset value of a voice (10_state.md R51). -/
def Voice.reset : Voice :=
  { lastSample := 0, time := 0, frequency := 0, frequencyStep := 0, stepInterval := 0, amplitude := 0,
    amplitudeStep := 0, amplitudeScale := 0, pmEn := false, pmSrc := 0, amEn := false, amSrc := 0 }

/-- The block of `n` voices right after construction with `cfg` (10_state.md R51, 70_reset_and_hazards.md
R220), nothing presented and nothing answered yet. -/
def State.fresh (n : Nat) (cfg : Config) : State :=
  { voices := List.replicate n Voice.reset, enabledMask := 0, mutedMask := 0, remaining := 0, config := cfg,
    host := [], responses := [], noiseDraws := 0, arbitrations := 0 }

/-- The machine right after reset, 16 voices under the reference configuration (10_state.md R51; log
entry 2). -/
def State.reset : State := State.fresh 16 Config.reference

end Sys2Proof.Machine
end

