-- ==== Sys2Proof/Machine/Flags.lean ====
section
/-! DEFINITION. The block's only flag, Idle or Running (10_state.md R46), the mask bits (R43, R44) and the
status codes (30_encoding.md R89). -/

namespace Sys2Proof.Machine

/-- Running: `remaining_samples > 0`; otherwise Idle. Computed, not stored (10_state.md R46). -/
def State.running (s : State) : Bool := s.remaining != 0

/-- Bit `c` of the enabled mask (10_state.md R43). -/
def State.enabled (s : State) (c : Nat) : Bool := s.enabledMask.getLsbD c

/-- Bit `c` of the muted mask (10_state.md R44). -/
def State.muted (s : State) (c : Nat) : Bool := s.mutedMask.getLsbD c

/-- The 3-bit code of a status; 5..7 are never produced (30_encoding.md R89). -/
def Status.code : Status → BitVec 3
  | .ok => 0
  | .invalidEvent => 1
  | .outOfRange => 2
  | .busy => 3
  | .invalidChannel => 4

end Sys2Proof.Machine
end

