-- ==== Sys2Proof/Machine/Operands.lean ====
section
/-! DEFINITION. How each kind assembles its operand from VALUE (30_encoding.md R87), and the modes a
frequency selects (10_state.md R34). -/

namespace Sys2Proof.Machine

/-- A modulation source as PSYN writes it (10_state.md R40). -/
inductive ModSource where
  /-- No modulation. -/
  | disabled
  /-- Modulation by channel `idx`. -/
  | channel (idx : Nibble)
deriving DecidableEq, Repr

/-- The modes of a voice (10_state.md R34). -/
inductive Mode where
  /-- DC: frequency 0. -/
  | dc
  /-- Noise: frequency 0xFFFF. -/
  | noise
  /-- Tone: every other frequency. -/
  | tone
deriving DecidableEq, Repr

/-- VALUE whole: Time, Enable, Mute, SetFrequency, StepInterval, and the bits of FrequencyStep's s16
(30_encoding.md R87). -/
def operandHalf (value : Half) : Half := value

/-- VALUE[7:0]: SetAmplitude, and the bits of AmplitudeStep's s8; VALUE[15:8] is ignored
(30_encoding.md R87). -/
def operandByte (value : Half) : Byte := value.extractLsb' 0 8

/-- PhaseModSource and AmplitudeModSource: only 0xFFFF disables, any other value names the channel
VALUE[3:0] and VALUE[15:4] is ignored (30_encoding.md R87, 41_voice_events.md R123). -/
def operandSource (value : Half) : ModSource :=
  if value = 0xFFFF then .disabled else .channel (value.extractLsb' 0 4)

/-- AmplitudeScale: the whole VALUE is compared with 31; none above it (30_encoding.md R87,
41_voice_events.md R127). -/
def operandScale (value : Half) : Option (BitVec 5) :=
  if 31 < value.toNat then none else some (value.extractLsb' 0 5)

/-- The mode a frequency selects (10_state.md R34). -/
def modeOf (frequency : Half) : Mode :=
  if frequency = 0 then .dc else if frequency = 0xFFFF then .noise else .tone

end Sys2Proof.Machine
end

