-- ==== Sys2Proof/Machine/Ops.lean ====
section
/-! DEFINITION. The named operations over the state: access to the voice file (00_scope.md R16), the
outcomes of an operation (R17), rejection, the block's counterpart of taking an exception
(60_exceptions.md R203), reset (70_reset_and_hazards.md R220), and the gate and channel check that the
gated kinds share (40_event_dispatcher.md R101 to R104). -/

namespace Sys2Proof.Machine

/-- N, the number of voices (00_scope.md R7, 10_state.md R31). -/
def State.channels (s : State) : Nat := s.voices.length

/-- `V[c]` (00_scope.md R16). No operation reads an index at or above N (20_memory.md R65); the model gives
a reset voice there (log entry 14). -/
def State.voice (s : State) (c : Nat) : Voice := s.voices.getD c Voice.reset

/-- `V[c] <- v`, whole (00_scope.md R16); no operation writes an index at or above N. -/
def State.setVoice (s : State) (c : Nat) (v : Voice) : State := { s with voices := s.voices.set c v }

/-- The signed `V[c].last_sample`, what the mixer and the modulations read (10_state.md R32). -/
def State.lastSample (s : State) (c : Nat) : Int := sext (s.voice c).lastSample

/-- The state after the block has given the host one more response (70_reset_and_hazards.md R231). -/
def State.answer (s : State) (r : Response) : State := { s with responses := s.responses ++ [r] }

/-- `respond(st)`: ends an APPLY with status `st` (00_scope.md R17). -/
def State.respond (s : State) (st : Status) : Result := .next (s.answer (.status st))

/-- `raise E`: a rejected APPLY returns its status and changes nothing else: nothing is saved, nothing is
redirected (00_scope.md R17, 60_exceptions.md R203). There is no return operation (R204). -/
def State.raise (s : State) (st : Status) : Result := .next (s.answer (.status st))

/-- `emit(v)`: ends a TICK with the sample `v` (00_scope.md R17, 30_encoding.md R90). -/
def State.emit (s : State) (v : Int) : Result := .next (s.answer (.sample (BitVec.ofInt 16 v)))

/-- `ResetState()`: every field of 10_state.md R51 takes its reset value; the configuration and a noise
generator's state do not change (70_reset_and_hazards.md R221). -/
def State.resetState (s : State) : State :=
  { s with
    voices := List.replicate s.channels Voice.reset, enabledMask := 0, mutedMask := 0, remaining := 0 }

/-- The gate: while Running the event is rejected with Busy, before any other check
(40_event_dispatcher.md R102, 60_exceptions.md R202). -/
def State.gated (s : State) (body : State → Result) : Result :=
  if s.running then s.raise .busy else body s

/-- The checks of a per-voice event, the gate and then CHAN against N, and its effect on voice CHAN
(40_event_dispatcher.md R101, R104; 41_voice_events.md R120). -/
def State.perVoice (s : State) (chan : Nibble) (body : Nat → State → Result) : Result :=
  s.gated fun s => if s.channels ≤ chan.toNat then s.raise .invalidChannel else body chan.toNat s

/-- Writes fields of voice `c` and responds Ok: the end of every accepted per-voice event
(41_voice_events.md R120). -/
def State.updateVoice (s : State) (c : Nat) (f : Voice → Voice) : Result :=
  (s.setVoice c (f (s.voice c))).respond .ok

/-- The value check and the write of a modulation-source event: Disabled writes one representation, a
channel at or above N is rejected (41_voice_events.md R123, R126). -/
def State.selectSource (s : State) (c : Nat) (src : ModSource) (put : Bool → Nibble → Voice → Voice) :
    Result :=
  match src with
  | .disabled => s.updateVoice c (put false 0)
  | .channel idx =>
    if s.channels ≤ idx.toNat then s.raise .invalidChannel else s.updateVoice c (put true idx)

/-- Construction: refused for a configuration outside its bounds, otherwise the fresh block
(00_scope.md R17, 70_reset_and_hazards.md R220, R223). -/
def construct (n : Nat) (cfg : Config) : Result :=
  if Config.validCount n && cfg.valid then .next (State.fresh n cfg) else .refused .invalidConfiguration

/-- The `rst` input: the state of construction again; no status and no sample, and nothing offered while it
is asserted is accepted (70_reset_and_hazards.md R220, R221; log entry 6). -/
def State.rst (s : State) (_offered : List Offer) : Result := .next s.resetState

/-- Puts an APPLY and a TICK presented together in one of the two orders, by a free choice
(70_reset_and_hazards.md R225; log entry 8). -/
def State.serialise (s : State) (w : Word) (rest : List HostOp) : Result :=
  .next
    { s with
      host := (if Config.applyFirst s.arbitrations then [.apply w, .tick] else [.tick, .apply w]) ++ rest,
      arbitrations := s.arbitrations + 1 }

end Sys2Proof.Machine
end

