-- ==== Sys2Proof/Machine/GlobalEvents.lean ====
section
/-! DEFINITION. The four events on global state and the unrecognised kinds (40_event_dispatcher.md R103,
R106 to R109). -/

namespace Sys2Proof.Machine

/-- End: resets the engine, Idle or Running, always Ok (R106). -/
def execEnd (s : State) : Result := s.resetState.respond .ok

/-- Time: replaces the countdown, Idle or Running, always Ok (R107). -/
def execTime (count : Half) (s : State) : Result :=
  { s with remaining := operandHalf count }.respond .ok

/-- Enable: replaces the enabled mask whole, gated (R108). -/
def execEnable (mask : Half) (s : State) : Result :=
  s.gated fun s => { s with enabledMask := operandHalf mask }.respond .ok

/-- Mute: replaces the muted mask whole, gated (R109). -/
def execMute (mask : Half) (s : State) : Result :=
  s.gated fun s => { s with mutedMask := operandHalf mask }.respond .ok

/-- A word of KIND 12..15: Busy when Running, InvalidEvent when Idle; nothing changes (R102, R103;
30_encoding.md R86). -/
def execUnrecognised (_kind : Nibble) (s : State) : Result := s.gated fun s => s.raise .invalidEvent

end Sys2Proof.Machine
end

