-- ==== Sys2Proof/Machine/Sine.lean ====
section
/-! DEFINITION. The Sine Approximator: quadrant folding over the quarter-wave table
(42_sine_approximator.md R140 to R145). -/

namespace Sys2Proof.Machine

/-- `LutRead(i)` (20_memory.md R61); the folds keep `i` in 0..359 (log entry 14). -/
def lutRead (cfg : Config) (i : Int) : Int := (cfg.sineLut.getD i.toNat 0 : Nat)

/-- The half-wave fold of a reduced angle: 720..1439 is reflected into 0..719 (R143). -/
def halfFold (a : Int) : Int := if 720 ≤ a then 1440 - a - 1 else a

/-- The quarter-wave fold: 360..719 is reflected into 0..359 (R144). -/
def quarterFold (a : Int) : Int := if 360 ≤ a then 720 - a - 1 else a

/-- `Sine(a)`, the angle in quarter-degrees (R140): reduce (R141), fold (R143, R144), look up, and apply
the sign (R145). -/
def sine (cfg : Config) (a : Int) : Int :=
  let r := a % 1440
  let m := lutRead cfg (quarterFold (halfFold r))
  if 720 ≤ r then -m else m

end Sys2Proof.Machine
end

