-- ==== Sys2Proof/Machine/VoiceCompute.lean ====
section
/-! DEFINITION. VoiceStep, one voice advanced by one tick (43_voice_compute.md R150 to R166). The datapath
is a function of the voice and of what it takes from outside: the sample of its amplitude modulator, the
sample of its phase modulator and a noise draw; `voiceStep` supplies the three from the state. -/

namespace Sys2Proof.Machine

/-- Steps 1 and 2: the amplitude, plus the modulator's sample `am` when enabled (R152, R153). -/
def ampOf (v : Voice) (am : Int) : Int := if v.amEn then zext v.amplitude + am else zext v.amplitude

/-- The tone-mode angle before reduction, plus the modulator's sample `pm` when enabled (R157, R158). -/
def angleOf (cfg : Config) (v : Voice) (pm : Int) : Int :=
  let ang := 1440 * zext v.frequency * zext v.time / (cfg.sampleRate : Int)
  if v.pmEn then ang + pm else ang

/-- Steps 3a to 3c: the sample of the voice's mode (R155, R156, R159). -/
def modeSample (cfg : Config) (v : Voice) (amp pm r : Int) : Int :=
  match modeOf v.frequency with
  | .dc => amp
  | .noise => r * amp
  | .tone => sine cfg (angleOf cfg v pm % 1440) * amp

/-- Step 3 and 3d: 0 for a zero amplitude, else the mode's sample shifted right (R154, R160). -/
def rawSample (cfg : Config) (v : Voice) (am pm r : Int) : Int :=
  if ampOf v am = 0 then 0 else asr (modeSample cfg v (ampOf v am) pm r) v.amplitudeScale.toNat

/-- Whether this step consumes a noise draw: noise mode and a nonzero amplitude (R154, R156). -/
def takesDraw (v : Voice) (am : Int) : Bool := (ampOf v am != 0) && (modeOf v.frequency == .noise)

/-- Step 4's condition, on `time` before its increment (R161). -/
def rampDue (v : Voice) : Bool := (v.stepInterval != 0) && (v.time.toNat % v.stepInterval.toNat == 0)

/-- The frequency ramp, clamped to 0..MAX_FREQUENCY; the step is never cleared (R162; log entry 16). -/
def rampFrequency (cfg : Config) (v : Voice) : Voice :=
  if v.frequencyStep = 0 then v
  else
    { v with
      frequency :=
        BitVec.ofInt 16 (clamp (zext v.frequency + v.frequencyStep.toInt) 0 (zext cfg.maxFrequency)) }

/-- The amplitude ramp: a bound that is passed is stored and clears the step (R163). -/
def rampAmplitude (v : Voice) : Voice :=
  if v.amplitudeStep = 0 then v
  else
    let a := zext v.amplitude + v.amplitudeStep.toInt
    if a < 0 then { v with amplitude := 0, amplitudeStep := 0 }
    else if 255 < a then { v with amplitude := 255, amplitudeStep := 0 }
    else { v with amplitude := BitVec.ofInt 8 a }

/-- Step 4: both ramps on a ramp tick (R161 to R163). -/
def ramp (cfg : Config) (v : Voice) : Voice :=
  if rampDue v then rampAmplitude (rampFrequency cfg v) else v

/-- The voice after one step: the sample from the values before the ramp, the ramp, the clip, the store and
the increment of `time` (R151, R164 to R166). -/
def voiceAfter (cfg : Config) (v : Voice) (am pm r : Int) : Voice :=
  { ramp cfg v with
    lastSample := BitVec.ofInt 16 (sat16 (rawSample cfg v am pm r)), time := v.time + 1 }

/-- The next noise draw, free in -256..255 (00_scope.md R11, 43_voice_compute.md R156). -/
def State.draw (s : State) : Int := (Config.noiseDraw s.noiseDraws).toInt

/-- `VoiceStep(c)` (R151): modulation reads see the most recent write (20_memory.md R69), and a noise draw is
consumed exactly when one is used (R156). -/
def voiceStep (c : Nat) (s : State) : State :=
  let v := s.voice c
  let am := s.lastSample v.amSrc.toNat
  let pm := s.lastSample v.pmSrc.toNat
  { s.setVoice c (voiceAfter s.config v am pm s.draw) with
    noiseDraws := s.noiseDraws + if takesDraw v am then 1 else 0 }

end Sys2Proof.Machine
end

