-- ==== Sys2Proof/Machine/Tick.lean ====
section
/-! DEFINITION. TICK: the sample producer, the mixer and the countdown (44_sample_producer.md R180 to R187). -/

namespace Sys2Proof.Machine

/-- One turn of the loop: channel `c` is stepped if enabled, and its sample is then added to the sum if it is
not muted (R182, R183). -/
def tickChannel (acc : State × Int) (c : Nat) : State × Int :=
  let s := if acc.1.enabled c then voiceStep c acc.1 else acc.1
  (s, if s.muted c then acc.2 else acc.2 + s.lastSample c)

/-- The loop over the first `n` channels in ascending order, with the exact running sum (R182, R184). -/
def tickLoop (n : Nat) (s : State) : State × Int := (List.range n).foldl tickChannel (s, 0)

/-- TICK (R180): 0 and nothing else when Idle (R181); when Running the loop over every channel, one
decrement (R185) and the sum saturated once (R184). -/
def execTick (s : State) : Result :=
  if s.running then
    let p := tickLoop s.channels s
    { p.1 with remaining := p.1.remaining - 1 }.emit (sat16 p.2)
  else s.emit 0

end Sys2Proof.Machine
end

