-- ==== Sys2Proof/Machine/VoiceEvents.lean ====
section
/-! DEFINITION. The eight per-voice events (41_voice_events.md R120 to R128). -/

namespace Sys2Proof.Machine

/-- SetFrequency: writes the frequency and retriggers the voice (R121). -/
def execSetFrequency (chan : Nibble) (value : Half) (s : State) : Result :=
  s.perVoice chan fun c s => s.updateVoice c fun v => { v with frequency := operandHalf value, time := 0 }

/-- FrequencyStep: writes the signed step (R122). -/
def execFrequencyStep (chan : Nibble) (value : Half) (s : State) : Result :=
  s.perVoice chan fun c s => s.updateVoice c fun v => { v with frequencyStep := operandHalf value }

/-- PhaseModSource: selects or disables the phase-modulation source (R123). -/
def execPhaseModSource (chan : Nibble) (value : Half) (s : State) : Result :=
  s.perVoice chan fun c s =>
    s.selectSource c (operandSource value) fun en src v => { v with pmEn := en, pmSrc := src }

/-- SetAmplitude: writes the amplitude from VALUE[7:0] (R124). -/
def execSetAmplitude (chan : Nibble) (value : Half) (s : State) : Result :=
  s.perVoice chan fun c s => s.updateVoice c fun v => { v with amplitude := operandByte value }

/-- AmplitudeStep: writes the signed step from VALUE[7:0] (R125). -/
def execAmplitudeStep (chan : Nibble) (value : Half) (s : State) : Result :=
  s.perVoice chan fun c s => s.updateVoice c fun v => { v with amplitudeStep := operandByte value }

/-- AmplitudeModSource: selects or disables the amplitude-modulation source (R126). -/
def execAmplitudeModSource (chan : Nibble) (value : Half) (s : State) : Result :=
  s.perVoice chan fun c s =>
    s.selectSource c (operandSource value) fun en src v => { v with amEn := en, amSrc := src }

/-- AmplitudeScale: writes the shift, OutOfRange above 31 (R127). -/
def execAmplitudeScale (chan : Nibble) (value : Half) (s : State) : Result :=
  s.perVoice chan fun c s =>
    match operandScale value with
    | none => s.raise .outOfRange
    | some shift => s.updateVoice c fun v => { v with amplitudeScale := shift }

/-- StepInterval: writes the ramp period; `time` is not reset (R128). -/
def execStepInterval (chan : Nibble) (value : Half) (s : State) : Result :=
  s.perVoice chan fun c s => s.updateVoice c fun v => { v with stepInterval := operandHalf value }

end Sys2Proof.Machine
end

