-- ==== Sys2Proof/Machine/Dispatch.lean ====
section
/-! DEFINITION. One arm per operation, each one call of its meaning. -/

namespace Sys2Proof.Machine

/-- The meaning of an operation. -/
def exec (i : Instr) (s : State) : Host.Outcome State Fault Refusal :=
  match i with
  | .endEvt => Sys2Proof.Machine.execEnd s
  | .time count => Sys2Proof.Machine.execTime count s
  | .enable mask => Sys2Proof.Machine.execEnable mask s
  | .mute mask => Sys2Proof.Machine.execMute mask s
  | .setFrequency chan value => Sys2Proof.Machine.execSetFrequency chan value s
  | .frequencyStep chan value => Sys2Proof.Machine.execFrequencyStep chan value s
  | .phaseModSource chan value => Sys2Proof.Machine.execPhaseModSource chan value s
  | .setAmplitude chan value => Sys2Proof.Machine.execSetAmplitude chan value s
  | .amplitudeStep chan value => Sys2Proof.Machine.execAmplitudeStep chan value s
  | .amplitudeModSource chan value => Sys2Proof.Machine.execAmplitudeModSource chan value s
  | .amplitudeScale chan value => Sys2Proof.Machine.execAmplitudeScale chan value s
  | .stepInterval chan value => Sys2Proof.Machine.execStepInterval chan value s
  | .unrecognised kind => Sys2Proof.Machine.execUnrecognised kind s
  | .tick => Sys2Proof.Machine.execTick s

end Sys2Proof.Machine
end

