-- ==== Sys2Proof/Machine/Fetch.lean ====
section
/-! DEFINITION. The operation a host presents for a row of the opcode table or for an instruction: an
APPLY of its word, or a TICK, which has none (30_encoding.md R88, R91). -/

namespace Sys2Proof.Machine

/-- The operation whose `nbits` bits are `w`: none at all is a TICK (log entry 10), else an APPLY of the word
with the bits above `nbits` zero (log entry 11). -/
def hostOpOfBits (nbits w : Nat) : HostOp :=
  if nbits = 0 then .tick else .apply (BitVec.ofNat 32 (w % 2 ^ min nbits 32))

/-- The operation by which the host has instruction `i` run. -/
def hostOpOf (i : Instr) : HostOp :=
  match encode i with
  | some w => .apply w
  | none => .tick

end Sys2Proof.Machine
end

