-- ==== Sys2Proof/Machine/Step.lean ====
section
/-! DEFINITION. One step of the machine: the host's next operation, run whole (00_scope.md R5, R6;
70_reset_and_hazards.md R231). -/

namespace Sys2Proof.Machine

/-- Takes the host's oldest operation and runs it: an APPLY runs the operation its word decodes to, a TICK
runs TICK, `rst` resets, and a pair presented together is put in order. With no operation presented the
block waits, unchanged (00_scope.md R6, 20_memory.md R67; log entry 4). -/
def step (s : State) : Host.Outcome State Fault Refusal :=
  match s.host with
  | [] => .next s
  | .apply w :: rest => exec (decodeWord w) { s with host := rest }
  | .tick :: rest => exec .tick { s with host := rest }
  | .rst offered :: rest => { s with host := rest }.rst offered
  | .together w :: rest => s.serialise w rest

/-- `s` with the operation of a table row presented as the host's next one (log entries 3, 10 and 11). -/
def State.withFetchWord (s : State) (nbits w : Nat) : State :=
  { s with host := hostOpOfBits nbits w :: s.host }

end Sys2Proof.Machine
end

