-- ==== Sys2Proof/Machine/Assembler.lean ====
section
/-! DEFINITION. The event-stream assembly of 30_encoding.md R92 and the pseudo-operations of R93, over their
abstract syntax: what operations each line stands for, and which lines the assembler rejects (log entry
15). -/

namespace Sys2Proof.Machine

/-- The kinds `pvkind` of the grammar (R92). -/
inductive PvKind where
  | setFrequency
  | frequencyStep
  | setAmplitude
  | amplitudeStep
  | amplitudeScale
  | stepInterval
deriving DecidableEq, Repr

/-- The two modulation-source kinds of the grammar (R92). -/
inductive SourceKind where
  | phaseModSource
  | amplitudeModSource
deriving DecidableEq, Repr

/-- The second operand of a modulation-source line (R92). -/
inductive SourceOperand where
  /-- `chS`. -/
  | ch (d : Nat)
  /-- `off`. -/
  | off
  /-- A plain `num`. -/
  | num (n : Int)
deriving DecidableEq, Repr

/-- One `op` of the grammar (R92) or one pseudo-operation (R93). -/
inductive AsmOp where
  /-- `End()`. -/
  | endOp
  /-- `Time(num)`. -/
  | time (n : Int)
  /-- `Enable(mask=num)`. -/
  | enable (n : Int)
  /-- `Mute(mask=num)`. -/
  | mute (n : Int)
  /-- `pvkind(chD, num)`. -/
  | perVoice (kind : PvKind) (d : Nat) (n : Int)
  /-- `PhaseModSource(chD, …)` and `AmplitudeModSource(chD, …)`. -/
  | source (kind : SourceKind) (d : Nat) (src : SourceOperand)
  /-- `TICK*n`; `TICK` alone is `TICK*1`. DESIGN CHOICE (log entry 19): a count is a natural number, so the
  `TICK*-n` that the grammar's `num` admits is no operation. -/
  | tick (n : Nat)
  /-- `.word hex32`. -/
  | word (w : Word)
  /-- `Noise(chD)` (R93). -/
  | noise (d : Nat)
  /-- `DC(chD)` (R93). -/
  | dc (d : Nat)
  /-- `PhaseModOff(chD)` (R93). -/
  | phaseModOff (d : Nat)
  /-- `AmpModOff(chD)` (R93). -/
  | ampModOff (d : Nat)
  /-- `Run(n)`, n ≥ 1 (R93). -/
  | run (n : Nat)
  /-- `Reset()` (R93). -/
  | reset
deriving DecidableEq, Repr

/-- A `num` of an unsigned 16-bit value, 0..65535 (R92). -/
def asmHalf (n : Int) : Option Half :=
  if 0 ≤ n ∧ n ≤ 65535 then some (BitVec.ofInt 16 n) else none

/-- A channel number `d`, 0..15 (R92). -/
def asmChannel (d : Nat) : Option Nibble := if d ≤ 15 then some (BitVec.ofNat 4 d) else none

/-- The VALUE of a per-voice line: a negative step is its two's complement, in 16 bits for FrequencyStep, in
8 bits extended with zeros for AmplitudeStep; AmplitudeScale above 31 is not rejected (R92). -/
def asmValue (kind : PvKind) (n : Int) : Option Half :=
  match kind with
  | .frequencyStep => if -32768 ≤ n ∧ n ≤ 32767 then some (BitVec.ofInt 16 n) else none
  | .amplitudeStep =>
    if -128 ≤ n ∧ n ≤ 127 then some ((BitVec.ofInt 8 n).zeroExtend 16) else none
  | .setFrequency => asmHalf n
  | .setAmplitude => asmHalf n
  | .amplitudeScale => asmHalf n
  | .stepInterval => asmHalf n

/-- The VALUE of a modulation-source line: `chS` is S, `off` is 0xFFFF (R92). -/
def asmSource : SourceOperand → Option Half
  | .ch d => (asmChannel d).map (BitVec.zeroExtend 16)
  | .off => some 0xFFFF
  | .num n => asmHalf n

/-- The event of a per-voice kind (R85). -/
def pvInstr (kind : PvKind) (chan : Nibble) (value : Half) : Instr :=
  match kind with
  | .setFrequency => .setFrequency chan value
  | .frequencyStep => .frequencyStep chan value
  | .setAmplitude => .setAmplitude chan value
  | .amplitudeStep => .amplitudeStep chan value
  | .amplitudeScale => .amplitudeScale chan value
  | .stepInterval => .stepInterval chan value

/-- The event of a modulation-source kind (R85). -/
def sourceInstr (kind : SourceKind) (chan : Nibble) (value : Half) : Instr :=
  match kind with
  | .phaseModSource => .phaseModSource chan value
  | .amplitudeModSource => .amplitudeModSource chan value

/-- The event a line that is no TICK, `.word` or `Run` stands for; none where the assembler rejects it (R92,
R93). -/
def asmEvent : AsmOp → Option Instr
  | .endOp => some .endEvt
  | .time n => (asmHalf n).map .time
  | .enable n => (asmHalf n).map .enable
  | .mute n => (asmHalf n).map .mute
  | .perVoice kind d n => (asmChannel d).bind fun c => (asmValue kind n).map (pvInstr kind c)
  | .source kind d src => (asmChannel d).bind fun c => (asmSource src).map (sourceInstr kind c)
  | .noise d => (asmChannel d).map (.setFrequency · 0xFFFF)
  | .dc d => (asmChannel d).map (.setFrequency · 0)
  | .phaseModOff d => (asmChannel d).map (.phaseModSource · 0xFFFF)
  | .ampModOff d => (asmChannel d).map (.amplitudeModSource · 0xFFFF)
  | .reset => some .endEvt
  | .tick _ => none
  | .word _ => none
  | .run _ => none

/-- The operations a line stands for; none where the assembler rejects it (R92, R93). -/
def assemble (op : AsmOp) : Option (List HostOp) :=
  match op with
  | .tick n => some (List.replicate n .tick)
  | .word w => some [.apply w]
  | .run n =>
    if n = 0 then none
    else (asmHalf n).map fun v => hostOpOf (.time v) :: List.replicate n .tick
  | op => (asmEvent op).map fun i => [hostOpOf i]

/-- The operations of a stream, in order (R92). DESIGN CHOICE (log entry 20): a rejected line leaves the whole
stream without operations; R92 says only that the line's number is rejected. -/
def assembleStream : List AsmOp → Option (List HostOp)
  | [] => some []
  | op :: rest => (assemble op).bind fun xs => (assembleStream rest).map (xs ++ ·)

end Sys2Proof.Machine
end

