-- ==== Sys2Proof/Safety.lean ====
section
/-! DEFINITION. What the claims call a well-formed state and a safe step. -/

namespace Sys2Proof.Machine

/-- The invariants of a voice in a block of `n` voices: an enabled source is a valid channel (10_state.md
R42). `amplitude_scale ≤ 31` holds by the register's width. -/
def Voice.wf (n : Nat) (v : Voice) : Bool :=
  (!v.pmEn || decide (v.pmSrc.toNat < n)) && (!v.amEn || decide (v.amSrc.toNat < n))

/-- The states of a block that exists: a valid configuration (70_reset_and_hazards.md R223) and every voice
within its invariants (10_state.md R42). -/
def State.wf (s : State) : Bool :=
  Config.validCount s.channels && s.config.valid && s.voices.all (Voice.wf s.channels)

/-- `n` steps in a row: a run of the host's first `n` operations (70_reset_and_hazards.md R231). -/
def runSteps : Nat → State → Result
  | 0, s => .next s
  | n + 1, s =>
    match step s with
    | .next t => runSteps n t
    | .fault r => .fault r
    | .refused r => .refused r

/-- A step is safe when it ends in a next state: the block has no fault and no operation hangs
(60_exceptions.md R205). -/
def Result.safe (o : Result) : Bool :=
  match o with
  | .next _ => true
  | .fault _ => false
  | .refused _ => false

end Sys2Proof.Machine
end

