-- ==== Sys2Proof/Certificates/Slice0/Obligations.lean ====
section
/-! DEFINITION. The statements for the provers, and the plain arithmetic they are written in. `Idle` is
`s.remaining = 0` and `Running` is `s.remaining ≠ 0` (10_state.md R46). `s.answer r` is `s` with the response
`r` added and nothing else changed, so an equation `exec i s = .next (s.answer r)` is also the whole frame. -/

namespace Sys2Proof.Listing

open Sys2Proof.Machine

/-- KIND as a number (30_encoding.md R81). -/
def kind (w : Word) : Nat := w.toNat / 2 ^ 28

/-- CHAN as a number (30_encoding.md R83). -/
def chan (w : Word) : Nat := w.toNat / 2 ^ 24 % 16

/-- RSVD as a number (30_encoding.md R82). -/
def rsvd (w : Word) : Nat := w.toNat / 2 ^ 16 % 256

/-- VALUE as a number (30_encoding.md R84). -/
def value (w : Word) : Nat := w.toNat % 65536

/-- `as_sN(u)` (00_scope.md R14). -/
def asSigned (n u : Nat) : Int := if u < 2 ^ (n - 1) then (u : Int) else (u : Int) - 2 ^ n

/-- Saturation to the signed 16-bit range (43_voice_compute.md R164). -/
def clip16 (v : Int) : Int := max (-32768) (min v 32767)

/-- The channel a per-voice event names; none for the other operations (41_voice_events.md R120). -/
def chanOf : Instr → Option Nibble
  | .setFrequency c _ => some c
  | .frequencyStep c _ => some c
  | .phaseModSource c _ => some c
  | .setAmplitude c _ => some c
  | .amplitudeStep c _ => some c
  | .amplitudeModSource c _ => some c
  | .amplitudeScale c _ => some c
  | .stepInterval c _ => some c
  | .endEvt => none
  | .time _ => none
  | .enable _ => none
  | .mute _ => none
  | .unrecognised _ => none
  | .tick => none

/-- A gated operation: every event but End and Time (40_event_dispatcher.md R102). -/
def gatedOp : Instr → Prop
  | .endEvt => False
  | .time _ => False
  | .tick => False
  | .enable _ => True
  | .mute _ => True
  | .setFrequency _ _ => True
  | .frequencyStep _ _ => True
  | .phaseModSource _ _ => True
  | .setAmplitude _ _ => True
  | .amplitudeStep _ _ => True
  | .amplitudeModSource _ _ => True
  | .amplitudeScale _ _ => True
  | .stepInterval _ _ => True
  | .unrecognised _ => True

/-- `s` with voice `c` replaced by what `f` makes of it, and no other change. -/
def put (s : State) (c : Nat) (f : Voice → Voice) : State :=
  { s with voices := s.voices.set c (f (s.voice c)) }

/-- The two rejections every per-voice event shares: Busy while Running, InvalidChannel when Idle and
CHAN ≥ N, the state otherwise unchanged (41_voice_events.md R120). -/
def rejects (i : Instr) (c : Nibble) (s : State) : Prop :=
  (s.remaining ≠ 0 → exec i s = .next (s.answer (.status .busy))) ∧
  (s.remaining = 0 → s.channels ≤ c.toNat → exec i s = .next (s.answer (.status .invalidChannel)))

/-- The value check and the write of a modulation-source event (41_voice_events.md R123, R126). -/
def sourceListing (s : State) (c v : Nat) (f : Bool → Nibble → Voice → Voice) : State × Status :=
  if v = 0xFFFF then (put s c (f false 0), .ok)
  else if s.channels ≤ v % 16 then (s, .invalidChannel)
  else (put s c (f true (BitVec.ofNat 4 (v % 16))), .ok)

/-- APPLY's decoding, in full and in the order of 40_event_dispatcher.md R101, with `PerVoice` as
41_voice_events.md R121 to R128 list it; written over the number the word is, apart from the decoder. -/
def applyListing (w : Word) (s : State) : State × Status :=
  let k := kind w
  let c := chan w
  let v := value w
  if k = 0 then
    ({ s with
        voices := List.replicate s.channels Voice.reset, enabledMask := 0, mutedMask := 0, remaining := 0 },
      .ok)
  else if k = 1 then ({ s with remaining := BitVec.ofNat 16 v }, .ok)
  else if 0 < s.remaining.toNat then (s, .busy)
  else if 12 ≤ k then (s, .invalidEvent)
  else if k = 2 then ({ s with enabledMask := BitVec.ofNat 16 v }, .ok)
  else if k = 3 then ({ s with mutedMask := BitVec.ofNat 16 v }, .ok)
  else if s.channels ≤ c then (s, .invalidChannel)
  else if k = 4 then (put s c fun x => { x with frequency := BitVec.ofNat 16 v, time := 0 }, .ok)
  else if k = 5 then
    (put s c fun x => { x with frequencyStep := BitVec.ofInt 16 (asSigned 16 v) }, .ok)
  else if k = 6 then sourceListing s c v fun en src x => { x with pmEn := en, pmSrc := src }
  else if k = 7 then (put s c fun x => { x with amplitude := BitVec.ofNat 8 (v % 256) }, .ok)
  else if k = 8 then
    (put s c fun x => { x with amplitudeStep := BitVec.ofInt 8 (asSigned 8 (v % 256)) }, .ok)
  else if k = 9 then sourceListing s c v fun en src x => { x with amEn := en, amSrc := src }
  else if k = 10 then
    if 31 < v then (s, .outOfRange)
    else (put s c fun x => { x with amplitudeScale := BitVec.ofNat 5 v }, .ok)
  else (put s c fun x => { x with stepInterval := BitVec.ofNat 16 v }, .ok)

/-- The amplitude after step 2 of VoiceStep in state `s` (43_voice_compute.md R152, R153). -/
def amp (s : State) (v : Voice) : Int :=
  (v.amplitude.toNat : Int) + if v.amEn then s.lastSample v.amSrc.toNat else 0

/-- The angle of a tone-mode voice before reduction (43_voice_compute.md R157, R158). -/
def angle (s : State) (v : Voice) : Int :=
  (1440 * (v.frequency.toNat : Int) * (v.time.toNat : Int)) / (s.config.sampleRate : Int) +
    if v.pmEn then s.lastSample v.pmSrc.toNat else 0

/-- A ramp tick (43_voice_compute.md R161). -/
def due (v : Voice) : Prop := v.stepInterval.toNat ≠ 0 ∧ v.time.toNat % v.stepInterval.toNat = 0

/-- Every field of 10_state.md R51 holds its reset value. -/
def allReset (s : State) : Prop :=
  (∀ c, c < s.channels →
    (s.voice c).lastSample = 0 ∧ (s.voice c).time = 0 ∧ (s.voice c).frequency = 0 ∧
    (s.voice c).frequencyStep = 0 ∧ (s.voice c).stepInterval = 0 ∧ (s.voice c).amplitude = 0 ∧
    (s.voice c).amplitudeStep = 0 ∧ (s.voice c).amplitudeScale = 0 ∧ (s.voice c).pmEn = false ∧
    (s.voice c).pmSrc = 0 ∧ (s.voice c).amEn = false ∧ (s.voice c).amSrc = 0) ∧
  s.enabledMask = 0 ∧ s.mutedMask = 0 ∧ s.remaining = 0

/-- The sum of the unmuted channels' samples in `t`, by the mask of `s` (44_sample_producer.md R183). -/
def mixOf (s t : State) : Int :=
  ((List.range s.channels).map fun c => if s.mutedMask.getLsbD c then 0 else t.lastSample c).sum

/-- `n` TICKs and nothing else presented to the block in state `s`. -/
def ticking (s : State) (n : Nat) : State := { s with host := List.replicate n .tick }

/-- Entry `i` of the table as an integer (42_sine_approximator.md R142). -/
def lut (cfg : Config) (i : Nat) : Int := ((cfg.sineLut.getD i 0 : Nat) : Int)

/-- The KIND code of a per-voice line (30_encoding.md R85, R92). -/
def pvCode : PvKind → Nat
  | .setFrequency => 4
  | .frequencyStep => 5
  | .setAmplitude => 7
  | .amplitudeStep => 8
  | .amplitudeScale => 10
  | .stepInterval => 11

/-- The numbers the assembler accepts for a per-voice line (30_encoding.md R92). -/
def pvAccepts (k : PvKind) (n : Int) : Prop :=
  match k with
  | .frequencyStep => -32768 ≤ n ∧ n ≤ 32767
  | .amplitudeStep => -128 ≤ n ∧ n ≤ 127
  | .setFrequency => 0 ≤ n ∧ n ≤ 65535
  | .setAmplitude => 0 ≤ n ∧ n ≤ 65535
  | .amplitudeScale => 0 ≤ n ∧ n ≤ 65535
  | .stepInterval => 0 ≤ n ∧ n ≤ 65535

/-- The KIND code of a modulation-source line (30_encoding.md R85, R92). -/
def sourceCode : SourceKind → Nat
  | .phaseModSource => 6
  | .amplitudeModSource => 9

/-- The VALUE of a modulation-source line: `chS` is S, `off` is 0xFFFF, a number is itself; none where the
assembler rejects the operand (30_encoding.md R92). -/
def sourceValue : SourceOperand → Option Int
  | .ch d => if d ≤ 15 then some d else none
  | .off => some 65535
  | .num n => if 0 ≤ n ∧ n ≤ 65535 then some n else none

end Sys2Proof.Listing

open Sys2Proof Sys2Proof.Machine Sys2Proof.Listing

/-! ### Encoding -/

/-- Decoding the word of a well-formed operation gives that operation, with every operand at every value
(30_encoding.md R80, R85, R87). The encoder is the model's: it writes 0 in ignored fields (log entry 13). -/
def Obligations.DecodeOfEncodeIsIdentity : Prop :=
  ∀ (i : Instr) (w : Word), i.wellFormed = true → encode i = some w → decodeWord w = i

/-- Encoding what a word decodes to gives the word back but for the fields its kind ignores, which become
0: no other bit is dropped (30_encoding.md R82, R83, R87; log entry 13). -/
def Obligations.EncodeOfDecodeClearsIgnoredFields : Prop :=
  ∀ w : Word,
    (kind w = 0 → encode (decodeWord w) = some 0) ∧
    (1 ≤ kind w → kind w ≤ 3 → encode (decodeWord w) = some (w &&& 0xF000FFFF)) ∧
    (4 ≤ kind w → kind w ≤ 11 → encode (decodeWord w) = some (w &&& 0xFF00FFFF)) ∧
    (12 ≤ kind w → encode (decodeWord w) = some (w &&& 0xF0000000))

/-- The kind table of 30_encoding.md R85 and R86, with CHAN and VALUE as numbers: every word decodes to
exactly one of the twelve kinds or to an unrecognised one, well-formed, and never to TICK (R88). -/
def Obligations.KindTableDecodesEveryWord : Prop :=
  ∀ w : Word,
    let c : Nibble := BitVec.ofNat 4 (chan w)
    let v : Half := BitVec.ofNat 16 (value w)
    (kind w = 0 → decodeWord w = .endEvt) ∧ (kind w = 1 → decodeWord w = .time v) ∧
    (kind w = 2 → decodeWord w = .enable v) ∧ (kind w = 3 → decodeWord w = .mute v) ∧
    (kind w = 4 → decodeWord w = .setFrequency c v) ∧
    (kind w = 5 → decodeWord w = .frequencyStep c v) ∧
    (kind w = 6 → decodeWord w = .phaseModSource c v) ∧
    (kind w = 7 → decodeWord w = .setAmplitude c v) ∧
    (kind w = 8 → decodeWord w = .amplitudeStep c v) ∧
    (kind w = 9 → decodeWord w = .amplitudeModSource c v) ∧
    (kind w = 10 → decodeWord w = .amplitudeScale c v) ∧
    (kind w = 11 → decodeWord w = .stepInterval c v) ∧
    (12 ≤ kind w → decodeWord w = .unrecognised (BitVec.ofNat 4 (kind w))) ∧
    (decodeWord w).wellFormed = true ∧ decodeWord w ≠ .tick

/-- 30_encoding.md R82: two words that agree outside bits 23:16 step the block alike, and the word software
writes for an operation has 0 there. -/
def Obligations.ReservedBitsAreIgnored : Prop :=
  (∀ (s : State) (w w' : Word) (rest : List HostOp),
    (∀ i, i < 32 → i < 16 ∨ 24 ≤ i → w.getLsbD i = w'.getLsbD i) →
    step { s with host := .apply w :: rest } = step { s with host := .apply w' :: rest }) ∧
  ∀ (i : Instr) (w : Word), encode i = some w → rsvd w = 0

/-- The kinds End, Time, Enable and Mute, and the unrecognised ones, do not read CHAN: words that agree
outside bits 27:24 step the block alike (30_encoding.md R83, R86). -/
def Obligations.GlobalEventsIgnoreChannelField : Prop :=
  ∀ (s : State) (w w' : Word) (rest : List HostOp),
    kind w ≤ 3 ∨ 12 ≤ kind w → (∀ i, i < 32 → i < 24 ∨ 28 ≤ i → w.getLsbD i = w'.getLsbD i) →
    step { s with host := .apply w :: rest } = step { s with host := .apply w' :: rest }

/-- The eleven encoding examples of 30_encoding.md R94, each decoded; the words are the spec's. -/
def Obligations.SpecExampleWordsDecode : Prop :=
  decodeWord 0x00000000 = .endEvt ∧ decodeWord 0x10007D00 = .time 32000 ∧
  decodeWord 0x20000001 = .enable 1 ∧ decodeWord 0x400003E8 = .setFrequency 0 1000 ∧
  decodeWord 0x700000FF = .setAmplitude 0 255 ∧ decodeWord 0xA0000008 = .amplitudeScale 0 8 ∧
  decodeWord 0x4300FFFF = .setFrequency 3 0xFFFF ∧ decodeWord 0x810000FF = .amplitudeStep 1 0xFF ∧
  decodeWord 0x5200FF9C = .frequencyStep 2 0xFF9C ∧ decodeWord 0x90000001 = .amplitudeModSource 0 1 ∧
  decodeWord 0x6F00FFFF = .phaseModSource 15 0xFFFF

/-- A transport that splits words sends the byte holding bits 7:0 first, and four bytes an event
(20_memory.md R64); fewer than four bytes are no event (the model's choice, log entry 12). -/
def Obligations.TransportBytesDecodeLittleEndian : Prop :=
  (∀ (w : Word) (rest : List Byte), decodeBytes (bytesOfWord w ++ rest) = .ok (decodeWord w, rest)) ∧
  (∀ (b0 b1 b2 b3 : Byte) (rest : List Byte) (w : Word),
    wordOfBytes (b0 :: b1 :: b2 :: b3 :: rest) = .ok (w, rest) ↔
      w.toNat = b0.toNat + 2 ^ 8 * b1.toNat + 2 ^ 16 * b2.toNat + 2 ^ 24 * b3.toNat) ∧
  ∀ bytes : List Byte, bytes.length < 4 → decodeBytes bytes = .error .truncatedWord

/-! ### The step, reset and the invariants -/

/-- A step runs the operation that the host's oldest word decodes to, on the state without that word; a TICK
request runs TICK (40_event_dispatcher.md R101, 44_sample_producer.md R180); with nothing presented nothing
changes (00_scope.md R6). The queue of host operations is the model's (log entry 3), and so is that the waiting
step is a next state, not a stop (log entry 4). -/
def Obligations.StepRunsTheDecodedOperation : Prop :=
  (∀ (s : State) (w : Word) (rest : List HostOp) (i : Instr),
    s.host = .apply w :: rest → decodeWord w = i → step s = exec i { s with host := rest }) ∧
  (∀ (s : State) (rest : List HostOp),
    s.host = .tick :: rest → step s = exec .tick { s with host := rest }) ∧
  ∀ s : State, s.host = [] → step s = .next s

/-- An APPLY and a TICK presented at the same instant are taken one after the other, in one of the two
orders, each as if presented alone (70_reset_and_hazards.md R225). Which one is a free value; that the
ordering takes a step of its own is the model's choice (log entry 8). -/
def Obligations.SimultaneousOperationsAreSerialised : Prop :=
  ∀ (s : State) (w : Word) (rest : List HostOp), s.host = .together w :: rest →
    ∃ t : State, step s = .next t ∧
      (t = { s with host := .apply w :: .tick :: rest, arbitrations := s.arbitrations + 1 } ∨
       t = { s with host := .tick :: .apply w :: rest, arbitrations := s.arbitrations + 1 })

/-- 10_state.md R51: every field holds its reset value after construction, after `rst` and after End, and N
and the configuration are as before. `rst` answers nothing, changes nothing else and accepts nothing offered
while it is asserted (log entry 6). The values of
`State.reset`'s parameters are not stated (log entry 2). -/
def Obligations.ResetValuesOfEveryField : Prop :=
  allReset State.reset ∧
  (∀ (n : Nat) (cfg : Config) (t : State), construct n cfg = .next t →
    allReset t ∧ t.channels = n ∧ t.config = cfg) ∧
  (∀ (s : State) (offered : List Offer) (rest : List HostOp), s.host = .rst offered :: rest →
    ∃ t : State, step s = .next t ∧ allReset t ∧ t.channels = s.channels ∧
      t = { s with
        host := rest, voices := List.replicate s.channels Voice.reset, enabledMask := 0, mutedMask := 0,
        remaining := 0 }) ∧
  ∀ s t : State, exec .endEvt s = .next t → allReset t ∧ t.channels = s.channels ∧ t.config = s.config

/-- Any nonempty sequence of End events and `rst` assertions leaves the state of R220, whatever the state before
(70_reset_and_hazards.md R222). That the counter of noise draws keeps its value is the model's (log entry 7: the
spec leaves a generator's state open), and so is what an `rst` does with the operations offered while it is
asserted (log entry 6). -/
def Obligations.ResetSequencesAreIdempotent : Prop :=
  ∀ (s : State) (ops : List HostOp), ops ≠ [] →
    (∀ op ∈ ops, (∃ offered, op = .rst offered) ∨ ∃ w : Word, op = .apply w ∧ kind w = 0) →
    ∃ t : State, runSteps ops.length { s with host := ops } = .next t ∧
      t.voices = List.replicate s.channels Voice.reset ∧ t.enabledMask = 0 ∧ t.mutedMask = 0 ∧
      t.remaining = 0 ∧ t.config = s.config ∧ t.noiseDraws = s.noiseDraws

/-- A configuration outside its bounds is refused at construction, every other one is built
(70_reset_and_hazards.md R223, 00_scope.md R7, R8, R10). -/
def Obligations.ConstructionChecksTheConfiguration : Prop :=
  ∀ (n : Nat) (cfg : Config),
    let good := 1 ≤ n ∧ n ≤ 16 ∧ 1 ≤ cfg.sampleRate ∧ cfg.sampleRate ≤ 4294967295 ∧
      cfg.sineLut.length = 360 ∧ ∀ m ∈ cfg.sineLut, m ≤ 254
    (good → construct n cfg = .next (State.fresh n cfg)) ∧
    (¬ good → construct n cfg = .refused .invalidConfiguration)

/-- Every step keeps a well-formed state well-formed: a valid configuration, N in 1..16, and every enabled
modulation source a valid channel (10_state.md R42; `amplitude_scale ≤ 31` is the register's width, stated
too). -/
def Obligations.StepKeepsWellFormedState : Prop :=
  ∀ s t : State, s.wf = true → step s = .next t →
    t.wf = true ∧
    ∀ c, c < t.channels →
      (t.voice c).amplitudeScale.toNat ≤ 31 ∧
      ((t.voice c).pmEn = true → (t.voice c).pmSrc.toNat < t.channels) ∧
      ((t.voice c).amEn = true → (t.voice c).amSrc.toNat < t.channels)

/-- The state after reset, and every constructed one, is well-formed (10_state.md R42, R51). -/
def Obligations.ResetStateIsWellFormed : Prop :=
  State.reset.wf = true ∧ ∀ (n : Nat) (cfg : Config) (t : State), construct n cfg = .next t → t.wf = true

/-- 00_scope.md R12: no step changes the configuration or the number of voices. -/
def Obligations.ConfigurationNeverChanges : Prop :=
  ∀ s t : State, step s = .next t → t.config = s.config ∧ t.channels = s.channels

/-- No operation faults, hangs or is refused, in any state (60_exceptions.md R205): each ends in a next state
with exactly one response more, a sample for TICK and a status for every APPLY, of the codes 0 to 4
(30_encoding.md R89). Every step ends in a next state too: for the step with nothing presented that is the
model's choice (log entry 4), and for the step that only orders an APPLY and a TICK (log entry 8). -/
def Obligations.EveryOperationAnswersOnce : Prop :=
  (∀ (i : Instr) (s : State), ∃ (t : State) (r : Response), exec i s = .next t ∧
    t.responses = s.responses ++ [r] ∧ t.host = s.host ∧ t.arbitrations = s.arbitrations ∧
    (i = .tick → ∃ x, r = .sample x) ∧ (i ≠ .tick → ∃ st : Status, r = .status st ∧ st.code.toNat ≤ 4)) ∧
  (∀ s : State, ∃ t : State, step s = .next t) ∧
  Status.ok.code = 0 ∧ Status.invalidEvent.code = 1 ∧ Status.outOfRange.code = 2 ∧
  Status.busy.code = 3 ∧ Status.invalidChannel.code = 4

/-! ### Statuses and the dispatcher -/

/-- 40_event_dispatcher.md R101: on every word and in every state, a step of an APPLY is the listing of R101,
its checks in that order, followed by the status. -/
def Obligations.ApplyFollowsTheListing : Prop :=
  ∀ (s : State) (w : Word) (rest : List HostOp), s.host = .apply w :: rest →
    step s = .next ((applyListing w { s with host := rest }).1.answer
      (.status (applyListing w { s with host := rest }).2))

/-- 40_event_dispatcher.md R102: while Running every word whose KIND is neither 0 nor 1, 12 to 15 included,
returns Busy and changes nothing, whatever else is wrong with it. -/
def Obligations.GatedEventsAreBusyWhileRunning : Prop :=
  (∀ (s : State) (w : Word) (rest : List HostOp), s.host = .apply w :: rest → 2 ≤ kind w →
    s.remaining ≠ 0 → step s = .next (State.answer { s with host := rest } (.status .busy))) ∧
  ∀ (s : State) (i : Instr), gatedOp i → s.remaining ≠ 0 → exec i s = .next (s.answer (.status .busy))

/-- 40_event_dispatcher.md R103: when Idle a word with KIND in 12..15 returns InvalidEvent and changes
nothing. -/
def Obligations.UnrecognisedKindIsInvalidEvent : Prop :=
  (∀ (s : State) (k : Nibble), s.remaining = 0 →
    exec (.unrecognised k) s = .next (s.answer (.status .invalidEvent))) ∧
  ∀ (s : State) (w : Word) (rest : List HostOp), s.host = .apply w :: rest → 12 ≤ kind w →
    s.remaining = 0 → step s = .next (State.answer { s with host := rest } (.status .invalidEvent))

/-- 40_event_dispatcher.md R104: when Idle a per-voice kind with CHAN ≥ N returns InvalidChannel and changes
nothing, before its VALUE is looked at; with N = 16 the check never fires. -/
def Obligations.ChannelAtOrAboveCountIsRejected : Prop :=
  (∀ (s : State) (w : Word) (rest : List HostOp), s.host = .apply w :: rest → 4 ≤ kind w → kind w ≤ 11 →
    s.remaining = 0 → s.channels ≤ chan w →
    step s = .next (State.answer { s with host := rest } (.status .invalidChannel))) ∧
  ∀ w : Word, chan w < 16

/-- 60_exceptions.md R203: an APPLY that returns anything but Ok leaves the state as it was before the event;
only the response is new. -/
def Obligations.RejectionChangesNothing : Prop :=
  ∀ (i : Instr) (s t : State) (st : Status), exec i s = .next t →
    t.responses = s.responses ++ [.status st] → st ≠ .ok → t = s.answer (.status st)

/-- Two identical APPLYs in a row leave the state and return the status of one (20_memory.md R66, an inference
of the spec's). -/
def Obligations.ApplyIsIdempotent : Prop :=
  ∀ (i : Instr) (s t : State), i ≠ .tick → exec i s = .next t →
    ∃ st : Status, t.responses = s.responses ++ [.status st] ∧ exec i t = .next (t.answer (.status st))

/-- No APPLY touches the noise source; none but End touches a last sample, and none but End and SetFrequency
a voice's time (40_event_dispatcher.md R110). -/
def Obligations.EventsLeaveSamplesAndTimeAlone : Prop :=
  ∀ (i : Instr) (s t : State), i ≠ .tick → exec i s = .next t →
    t.noiseDraws = s.noiseDraws ∧
    (i ≠ .endEvt → ∀ c, (t.voice c).lastSample = (s.voice c).lastSample) ∧
    (i ≠ .endEvt → (∀ ch v, i ≠ .setFrequency ch v) → ∀ c, (t.voice c).time = (s.voice c).time)

/-- A per-voice event writes no voice but the one its CHAN selects, no mask and not the countdown
(41_voice_events.md R120, 10_state.md R31). -/
def Obligations.PerVoiceEventWritesOneVoice : Prop :=
  ∀ (i : Instr) (c : Nibble) (s t : State), chanOf i = some c → exec i s = .next t →
    (∀ d, d ≠ c.toNat → t.voice d = s.voice d) ∧ t.channels = s.channels ∧
    t.enabledMask = s.enabledMask ∧ t.mutedMask = s.mutedMask ∧ t.remaining = s.remaining

/-! ### The global events -/

/-- 40_event_dispatcher.md R106: End, from any state, resets every voice and every global register, changes
neither the configuration nor the model's other fields, and returns Ok; a second End changes nothing more, the
next TICK returns 0, and every word of KIND 0 is End. -/
def Obligations.EndResetsTheEngine : Prop :=
  (∀ s : State,
    exec .endEvt s = .next (State.answer
      { s with
        voices := List.replicate s.channels Voice.reset, enabledMask := 0, mutedMask := 0, remaining := 0 }
      (.status .ok))) ∧
  (∀ s t : State, exec .endEvt s = .next t →
    exec .endEvt t = .next (t.answer (.status .ok)) ∧ exec .tick t = .next (t.answer (.sample 0))) ∧
  ∀ w : Word, kind w = 0 → decodeWord w = .endEvt

/-- 40_event_dispatcher.md R107: Time, Idle or mid-countdown, replaces the countdown, changes nothing else and
returns Ok; the engine is then Running exactly when the value is not 0, and after Time(0) the next TICK
returns 0 and changes nothing. -/
def Obligations.TimeReplacesTheCountdown : Prop :=
  (∀ (s : State) (v : Half),
    exec (.time v) s = .next (State.answer { s with remaining := v } (.status .ok))) ∧
  (∀ (s t : State) (v : Half), exec (.time v) s = .next t → (t.running = true ↔ 0 < v.toNat)) ∧
  (∀ s t : State, exec (.time 0) s = .next t → exec .tick t = .next (t.answer (.sample 0))) ∧
  ∀ w : Word, kind w = 1 → decodeWord w = .time (BitVec.ofNat 16 (value w))

/-- Enable and Mute, when Idle, replace their whole mask, change nothing else and return Ok
(40_event_dispatcher.md R108, R109). -/
def Obligations.EnableAndMuteReplaceTheirMask : Prop :=
  ∀ (s : State) (v : Half), s.remaining = 0 →
    exec (.enable v) s = .next (State.answer { s with enabledMask := v } (.status .ok)) ∧
    exec (.mute v) s = .next (State.answer { s with mutedMask := v } (.status .ok))

/-- 44_sample_producer.md R186: the engine state machine, row by row: where Time, End, TICK and a gated event
lead from Idle and from Running. -/
def Obligations.EngineStateMachine : Prop :=
  (∀ (s : State) (v : Half), ∃ t : State, exec (.time v) s = .next t ∧ t.remaining = v) ∧
  (∀ s : State, ∃ t : State, exec .endEvt s = .next t ∧ t.remaining = 0 ∧ allReset t) ∧
  (∀ s : State, s.remaining = 1 → ∃ t : State, exec .tick s = .next t ∧ t.remaining = 0) ∧
  (∀ (s : State) (k : Nat), s.remaining.toNat = k → 1 < k →
    ∃ t : State, exec .tick s = .next t ∧ t.remaining.toNat = k - 1 ∧ t.running = true) ∧
  (∀ s : State, s.remaining = 0 → exec .tick s = .next (s.answer (.sample 0))) ∧
  (∀ (i : Instr) (s : State), gatedOp i → s.remaining = 0 →
    ∃ t : State, exec i s = .next t ∧ t.remaining = 0) ∧
  ∀ (i : Instr) (s : State), gatedOp i → s.remaining ≠ 0 →
    exec i s = .next (s.answer (.status .busy))

/-! ### The per-voice events -/

/-- 41_voice_events.md R121: SetFrequency writes VALUE whole, above MAX_FREQUENCY too, and time 0, in voice
CHAN alone, or is rejected; 0 selects DC, 0xFFFF noise and every other value tone. -/
def Obligations.SetFrequencyRetriggersTheVoice : Prop :=
  (∀ (s : State) (c : Nibble) (v : Half), rejects (.setFrequency c v) c s ∧
    (s.remaining = 0 → c.toNat < s.channels →
      exec (.setFrequency c v) s =
        .next ((put s c.toNat fun x => { x with frequency := v, time := 0 }).answer (.status .ok)))) ∧
  (∀ v : Half, (modeOf v = .dc ↔ v.toNat = 0) ∧ (modeOf v = .noise ↔ v.toNat = 65535) ∧
    (modeOf v = .tone ↔ 1 ≤ v.toNat ∧ v.toNat ≤ 65534)) ∧
  ∀ w : Word, kind w = 4 →
    decodeWord w = .setFrequency (BitVec.ofNat 4 (chan w)) (BitVec.ofNat 16 (value w))

/-- 41_voice_events.md R122: FrequencyStep writes the signed value of VALUE in voice CHAN alone, or is
rejected; a step of 0 leaves the frequency ramp without effect. -/
def Obligations.FrequencyStepWritesSignedStep : Prop :=
  (∀ (s : State) (c : Nibble) (v : Half), rejects (.frequencyStep c v) c s ∧
    (s.remaining = 0 → c.toNat < s.channels →
      exec (.frequencyStep c v) s =
        .next ((put s c.toNat fun x => { x with frequencyStep := v }).answer (.status .ok)))) ∧
  (∀ v : Half, v.toInt = asSigned 16 v.toNat) ∧
  (∀ (cfg : Config) (x : Voice), x.frequencyStep = 0 → rampFrequency cfg x = x) ∧
  ∀ w : Word, kind w = 5 →
    decodeWord w = .frequencyStep (BitVec.ofNat 4 (chan w)) (BitVec.ofNat 16 (value w))

/-- 41_voice_events.md R123: PhaseModSource disables for 0xFFFF alone, otherwise selects channel VALUE[3:0], its
own included, or rejects a channel at or above N; voice CHAN's other fields and all else are unchanged. -/
def Obligations.PhaseModSourceSelectsOrDisables : Prop :=
  (∀ (s : State) (c : Nibble) (v : Half), rejects (.phaseModSource c v) c s ∧
    (s.remaining = 0 → c.toNat < s.channels → v.toNat = 0xFFFF →
      exec (.phaseModSource c v) s =
        .next ((put s c.toNat fun x => { x with pmEn := false, pmSrc := 0 }).answer (.status .ok))) ∧
    (s.remaining = 0 → c.toNat < s.channels → v.toNat ≠ 0xFFFF → v.toNat % 16 < s.channels →
      exec (.phaseModSource c v) s =
        .next ((put s c.toNat fun x =>
          { x with pmEn := true, pmSrc := BitVec.ofNat 4 (v.toNat % 16) }).answer (.status .ok))) ∧
    (s.remaining = 0 → c.toNat < s.channels → v.toNat ≠ 0xFFFF → s.channels ≤ v.toNat % 16 →
      exec (.phaseModSource c v) s = .next (s.answer (.status .invalidChannel)))) ∧
  ∀ w : Word, kind w = 6 →
    decodeWord w = .phaseModSource (BitVec.ofNat 4 (chan w)) (BitVec.ofNat 16 (value w))

/-- 41_voice_events.md R124: SetAmplitude writes VALUE[7:0] in voice CHAN alone, or is rejected; the amplitude
step is not changed. -/
def Obligations.SetAmplitudeWritesLowByte : Prop :=
  (∀ (s : State) (c : Nibble) (v : Half), rejects (.setAmplitude c v) c s ∧
    (s.remaining = 0 → c.toNat < s.channels →
      exec (.setAmplitude c v) s =
        .next ((put s c.toNat fun x =>
          { x with amplitude := BitVec.ofNat 8 (v.toNat % 256) }).answer (.status .ok)))) ∧
  ∀ w : Word, kind w = 7 →
    decodeWord w = .setAmplitude (BitVec.ofNat 4 (chan w)) (BitVec.ofNat 16 (value w))

/-- 41_voice_events.md R125: AmplitudeStep writes the signed value of VALUE[7:0] in voice CHAN alone, or is
rejected; a step of 0 leaves the amplitude ramp without effect. -/
def Obligations.AmplitudeStepWritesSignedByte : Prop :=
  (∀ (s : State) (c : Nibble) (v : Half), rejects (.amplitudeStep c v) c s ∧
    (s.remaining = 0 → c.toNat < s.channels →
      exec (.amplitudeStep c v) s =
        .next ((put s c.toNat fun x =>
          { x with amplitudeStep := BitVec.ofInt 8 (asSigned 8 (v.toNat % 256)) }).answer (.status .ok)))) ∧
  (∀ v : Half, (BitVec.ofInt 8 (asSigned 8 (v.toNat % 256))).toInt = asSigned 8 (v.toNat % 256)) ∧
  (∀ x : Voice, x.amplitudeStep = 0 → rampAmplitude x = x) ∧
  ∀ w : Word, kind w = 8 →
    decodeWord w = .amplitudeStep (BitVec.ofNat 4 (chan w)) (BitVec.ofNat 16 (value w))

/-- 41_voice_events.md R126: AmplitudeModSource, as PhaseModSource for the amplitude-modulation source. -/
def Obligations.AmplitudeModSourceSelectsOrDisables : Prop :=
  (∀ (s : State) (c : Nibble) (v : Half), rejects (.amplitudeModSource c v) c s ∧
    (s.remaining = 0 → c.toNat < s.channels → v.toNat = 0xFFFF →
      exec (.amplitudeModSource c v) s =
        .next ((put s c.toNat fun x => { x with amEn := false, amSrc := 0 }).answer (.status .ok))) ∧
    (s.remaining = 0 → c.toNat < s.channels → v.toNat ≠ 0xFFFF → v.toNat % 16 < s.channels →
      exec (.amplitudeModSource c v) s =
        .next ((put s c.toNat fun x =>
          { x with amEn := true, amSrc := BitVec.ofNat 4 (v.toNat % 16) }).answer (.status .ok))) ∧
    (s.remaining = 0 → c.toNat < s.channels → v.toNat ≠ 0xFFFF → s.channels ≤ v.toNat % 16 →
      exec (.amplitudeModSource c v) s = .next (s.answer (.status .invalidChannel)))) ∧
  ∀ w : Word, kind w = 9 →
    decodeWord w = .amplitudeModSource (BitVec.ofNat 4 (chan w)) (BitVec.ofNat 16 (value w))

/-- 41_voice_events.md R127: AmplitudeScale compares the whole VALUE with 31, writes it in voice CHAN alone, or
returns OutOfRange, after the channel check, and changes nothing. -/
def Obligations.AmplitudeScaleChecksItsRange : Prop :=
  (∀ (s : State) (c : Nibble) (v : Half), rejects (.amplitudeScale c v) c s ∧
    (s.remaining = 0 → c.toNat < s.channels → v.toNat ≤ 31 →
      exec (.amplitudeScale c v) s =
        .next ((put s c.toNat fun x =>
          { x with amplitudeScale := BitVec.ofNat 5 v.toNat }).answer (.status .ok))) ∧
    (s.remaining = 0 → c.toNat < s.channels → 31 < v.toNat →
      exec (.amplitudeScale c v) s = .next (s.answer (.status .outOfRange)))) ∧
  ∀ w : Word, kind w = 10 →
    decodeWord w = .amplitudeScale (BitVec.ofNat 4 (chan w)) (BitVec.ofNat 16 (value w))

/-- 41_voice_events.md R128: StepInterval writes VALUE in voice CHAN alone, time included unchanged, or is
rejected; the voice then ramps exactly on the ticks where VALUE is not 0 and divides its time. -/
def Obligations.StepIntervalSetsTheRampPeriod : Prop :=
  (∀ (s : State) (c : Nibble) (v : Half), rejects (.stepInterval c v) c s ∧
    (s.remaining = 0 → c.toNat < s.channels →
      exec (.stepInterval c v) s =
        .next ((put s c.toNat fun x => { x with stepInterval := v }).answer (.status .ok)))) ∧
  (∀ (x : Voice) (v : Half), rampDue { x with stepInterval := v } = true ↔
    v.toNat ≠ 0 ∧ x.time.toNat % v.toNat = 0) ∧
  ∀ w : Word, kind w = 11 →
    decodeWord w = .stepInterval (BitVec.ofNat 4 (chan w)) (BitVec.ofNat 16 (value w))

/-! ### The sine approximator -/

/-- The fold table of 42_sine_approximator.md R145 for every integer angle, and the table index always in
0..359 (20_memory.md R61). -/
def Obligations.SineFollowsTheFoldTable : Prop :=
  ∀ (cfg : Config) (a : Int),
    (a % 1440 < 360 → sine cfg a = lut cfg (a % 1440).toNat) ∧
    (360 ≤ a % 1440 → a % 1440 < 720 → sine cfg a = lut cfg (719 - a % 1440).toNat) ∧
    (720 ≤ a % 1440 → a % 1440 < 1080 → sine cfg a = -lut cfg (a % 1440 - 720).toNat) ∧
    (1080 ≤ a % 1440 → sine cfg a = -lut cfg (1439 - a % 1440).toNat) ∧
    0 ≤ quarterFold (halfFold (a % 1440)) ∧ quarterFold (halfFold (a % 1440)) ≤ 359

/-- The laws of 42_sine_approximator.md R148, for every table. -/
def Obligations.SineLawsHoldForEveryTable : Prop :=
  ∀ cfg : Config,
    (∀ a k : Int, sine cfg (a + 1440 * k) = sine cfg a) ∧
    (∀ a : Int, 0 ≤ a → a ≤ 359 →
      sine cfg (720 - a - 1) = sine cfg a ∧ sine cfg (1440 - a - 1) = -sine cfg a) ∧
    (∀ a : Int, 0 ≤ a → a ≤ 719 → sine cfg (a + 720) = -sine cfg a) ∧
    sine cfg 359 = lut cfg 359 ∧ sine cfg 360 = lut cfg 359 ∧ sine cfg 1079 = -lut cfg 359 ∧
    sine cfg 1080 = -lut cfg 359 ∧ sine cfg 0 = lut cfg 0 ∧ sine cfg 719 = lut cfg 0 ∧
    sine cfg 720 = -lut cfg 0 ∧ sine cfg 1439 = -lut cfg 0

/-- The output range of 42_sine_approximator.md R146: within the table's maximum, 254 at most under a valid
configuration, and every entry and its negative is an output. -/
def Obligations.SineOutputRange : Prop :=
  (∀ (cfg : Config) (m : Nat) (a : Int), (∀ x ∈ cfg.sineLut, x ≤ m) →
    -(m : Int) ≤ sine cfg a ∧ sine cfg a ≤ (m : Int)) ∧
  (∀ (cfg : Config) (a : Int), cfg.valid = true → -254 ≤ sine cfg a ∧ sine cfg a ≤ 254) ∧
  ∀ (cfg : Config) (i : Nat), i < 360 →
    (∃ a : Int, sine cfg a = lut cfg i) ∧ ∃ a : Int, sine cfg a = -lut cfg i

/-! ### VoiceStep -/

/-- 43_voice_compute.md R154: with amplitude 0 after step 2 the stored sample is 0, no draw is consumed and
neither the phase modulator nor the draw is read; the ramp and the increment of time still run. -/
def Obligations.ZeroAmplitudeStoresZero : Prop :=
  ∀ (s : State) (c : Nat), c < s.channels → amp s (s.voice c) = 0 →
    ((voiceStep c s).voice c).lastSample = 0 ∧ (voiceStep c s).noiseDraws = s.noiseDraws ∧
    (∀ pm r pm' r' : Int,
      voiceAfter s.config (s.voice c) (s.lastSample (s.voice c).amSrc.toNat) pm r =
        voiceAfter s.config (s.voice c) (s.lastSample (s.voice c).amSrc.toNat) pm' r') ∧
    ((voiceStep c s).voice c).frequency = (ramp s.config (s.voice c)).frequency ∧
    ((voiceStep c s).voice c).amplitude = (ramp s.config (s.voice c)).amplitude ∧
    ((voiceStep c s).voice c).amplitudeStep = (ramp s.config (s.voice c)).amplitudeStep ∧
    ((voiceStep c s).voice c).time.toNat = ((s.voice c).time.toNat + 1) % 65536

/-- 43_voice_compute.md R155, with R160 and R164: a DC voice stores its amplitude, shifted down and clipped. -/
def Obligations.DcModeStoresTheShiftedAmplitude : Prop :=
  ∀ (s : State) (c : Nat), c < s.channels → (s.voice c).frequency = 0 → amp s (s.voice c) ≠ 0 →
    ((voiceStep c s).voice c).lastSample.toInt =
      clip16 (amp s (s.voice c) / 2 ^ (s.voice c).amplitudeScale.toNat)

/-- A noise voice of nonzero amplitude consumes exactly one draw, the state's next one, in -256..255, and stores
that draw times `amp`, shifted and clipped; no other VoiceStep consumes one (43_voice_compute.md R156). That the
draw is `s.draw`, a free value picked by a counter that a draw advances, is the model's (log entry 7). -/
def Obligations.NoiseModeConsumesOneDraw : Prop :=
  ∀ (s : State) (c : Nat), c < s.channels →
    ((s.voice c).frequency = 0xFFFF → amp s (s.voice c) ≠ 0 →
      (voiceStep c s).noiseDraws = s.noiseDraws + 1 ∧ -256 ≤ s.draw ∧ s.draw ≤ 255 ∧
      ((voiceStep c s).voice c).lastSample.toInt =
        clip16 (s.draw * amp s (s.voice c) / 2 ^ (s.voice c).amplitudeScale.toNat)) ∧
    ((s.voice c).frequency ≠ 0xFFFF ∨ amp s (s.voice c) = 0 →
      (voiceStep c s).noiseDraws = s.noiseDraws)

/-- 43_voice_compute.md R157 to R159: a tone voice of nonzero amplitude stores the sine of its angle, with the
phase modulator's sample when enabled, reduced modulo 1440, times the amplitude, shifted and clipped; the
product before the division is below 2^43; in DC and noise mode the phase modulator is not read. -/
def Obligations.ToneModeStoresTheScaledSine : Prop :=
  (∀ (s : State) (c : Nat), c < s.channels → (s.voice c).frequency ≠ 0 →
    (s.voice c).frequency ≠ 0xFFFF → amp s (s.voice c) ≠ 0 →
    1440 * (s.voice c).frequency.toNat * (s.voice c).time.toNat < 2 ^ 43 ∧
    ((voiceStep c s).voice c).lastSample.toInt =
      clip16 (sine s.config (angle s (s.voice c) % 1440) * amp s (s.voice c) /
        2 ^ (s.voice c).amplitudeScale.toNat)) ∧
  ∀ (cfg : Config) (v : Voice) (am pm pm' r : Int), v.frequency = 0 ∨ v.frequency = 0xFFFF →
    voiceAfter cfg v am pm r = voiceAfter cfg v am pm' r

/-- 43_voice_compute.md R161: off a ramp tick the frequency, the amplitude and its step are unchanged; on one
both ramps run, whatever the amplitude and the mode; the test is on time before its increment. -/
def Obligations.RampRunsExactlyOnRampTicks : Prop :=
  ∀ (s : State) (c : Nat), c < s.channels →
    (¬ due (s.voice c) →
      ((voiceStep c s).voice c).frequency = (s.voice c).frequency ∧
      ((voiceStep c s).voice c).amplitude = (s.voice c).amplitude ∧
      ((voiceStep c s).voice c).amplitudeStep = (s.voice c).amplitudeStep) ∧
    (due (s.voice c) →
      ((voiceStep c s).voice c).frequency = (rampFrequency s.config (s.voice c)).frequency ∧
      ((voiceStep c s).voice c).amplitude = (rampAmplitude (s.voice c)).amplitude ∧
      ((voiceStep c s).voice c).amplitudeStep = (rampAmplitude (s.voice c)).amplitudeStep)

/-- The frequency ramp (43_voice_compute.md R162): on a ramp tick a nonzero step is added and the sum clamped
to 0..MAX_FREQUENCY, in every mode; the step is never cleared. That the formula holds in every case, also where
a bullet of R162 is looser, is the model's reading (log entry 16). -/
def Obligations.FrequencyRampClamps : Prop :=
  ∀ (s : State) (c : Nat), c < s.channels → due (s.voice c) →
    ((s.voice c).frequencyStep ≠ 0 →
      (((voiceStep c s).voice c).frequency.toNat : Int) =
        max 0 (min ((s.voice c).frequency.toNat + (s.voice c).frequencyStep.toInt)
          s.config.maxFrequency.toNat)) ∧
    ((s.voice c).frequencyStep = 0 →
      ((voiceStep c s).voice c).frequency = (s.voice c).frequency) ∧
    ((voiceStep c s).voice c).frequencyStep = (s.voice c).frequencyStep

/-- 43_voice_compute.md R163: on a ramp tick a nonzero step is added to the amplitude; a sum outside 0..255
stores the bound it passed and clears the step, a sum inside is stored and keeps the step, 0 and 255 included;
the sample of the same tick does not depend on the step. -/
def Obligations.AmplitudeRampSaturatesOnce : Prop :=
  (∀ (s : State) (c : Nat), c < s.channels → due (s.voice c) → (s.voice c).amplitudeStep ≠ 0 →
    let a : Int := (s.voice c).amplitude.toNat + (s.voice c).amplitudeStep.toInt
    let v' := (voiceStep c s).voice c
    (a < 0 → v'.amplitude.toNat = 0 ∧ v'.amplitudeStep = 0) ∧
    (255 < a → v'.amplitude.toNat = 255 ∧ v'.amplitudeStep = 0) ∧
    (0 ≤ a → a ≤ 255 → (v'.amplitude.toNat : Int) = a ∧ v'.amplitudeStep = (s.voice c).amplitudeStep)) ∧
  (∀ (s : State) (c : Nat), c < s.channels → (s.voice c).amplitudeStep = 0 →
    ((voiceStep c s).voice c).amplitude = (s.voice c).amplitude ∧
    ((voiceStep c s).voice c).amplitudeStep = 0) ∧
  ∀ (cfg : Config) (v : Voice) (b : Byte) (am pm r : Int),
    (voiceAfter cfg { v with amplitudeStep := b } am pm r).lastSample = (voiceAfter cfg v am pm r).lastSample

/-- VoiceStep(c) writes `V[c]` alone, and of it only last_sample, time, frequency, amplitude and
amplitude_step; no mask, no countdown, no configuration, no response (20_memory.md R63, 10_state.md R49). -/
def Obligations.VoiceStepWritesItsVoiceOnly : Prop :=
  ∀ (s : State) (c : Nat),
    (∀ d, d ≠ c → (voiceStep c s).voice d = s.voice d) ∧
    (voiceStep c s).channels = s.channels ∧ (voiceStep c s).enabledMask = s.enabledMask ∧
    (voiceStep c s).mutedMask = s.mutedMask ∧ (voiceStep c s).remaining = s.remaining ∧
    (voiceStep c s).config = s.config ∧ (voiceStep c s).host = s.host ∧
    (voiceStep c s).responses = s.responses ∧ (voiceStep c s).arbitrations = s.arbitrations ∧
    ((voiceStep c s).voice c).frequencyStep = (s.voice c).frequencyStep ∧
    ((voiceStep c s).voice c).stepInterval = (s.voice c).stepInterval ∧
    ((voiceStep c s).voice c).amplitudeScale = (s.voice c).amplitudeScale ∧
    ((voiceStep c s).voice c).pmEn = (s.voice c).pmEn ∧
    ((voiceStep c s).voice c).pmSrc = (s.voice c).pmSrc ∧
    ((voiceStep c s).voice c).amEn = (s.voice c).amEn ∧
    ((voiceStep c s).voice c).amSrc = (s.voice c).amSrc

/-- The datapath ranges of 43_voice_compute.md R167, the sample after the shift included, under a valid
configuration, for every voice, every modulator sample and every draw. -/
def Obligations.DatapathStaysWithinItsWidths : Prop :=
  ∀ (cfg : Config) (v : Voice) (am pm : Half) (r : Int), cfg.valid = true → -256 ≤ r → r ≤ 255 →
    (-32768 ≤ ampOf v (sext am) ∧ ampOf v (sext am) ≤ 33022) ∧
    (v.frequency ≠ 0xFFFF →
      1440 * v.frequency.toNat * v.time.toNat ≤ 6184469793600 ∧
      -32768 ≤ angleOf cfg v (sext pm) ∧ angleOf cfg v (sext pm) ≤ 6184469826367) ∧
    (∀ a : Int, -8387588 ≤ sine cfg a * ampOf v (sext am) ∧ sine cfg a * ampOf v (sext am) ≤ 8387588) ∧
    (-8453632 ≤ r * ampOf v (sext am) ∧ r * ampOf v (sext am) ≤ 8420610) ∧
    (-8453632 ≤ rawSample cfg v (sext am) (sext pm) r ∧
      rawSample cfg v (sext am) (sext pm) r ≤ 8420610) ∧
    (-32768 ≤ (v.frequency.toNat : Int) + v.frequencyStep.toInt ∧
      (v.frequency.toNat : Int) + v.frequencyStep.toInt ≤ 98302) ∧
    (-128 ≤ (v.amplitude.toNat : Int) + v.amplitudeStep.toInt ∧
      (v.amplitude.toNat : Int) + v.amplitudeStep.toInt ≤ 382)

/-- When `f * 65536` is a multiple of SAMPLE_RATE, the wrap of `time` does not show: the angle of a voice whose
16-bit `time` has counted `t` ticks is, modulo 1440, the angle of the unwrapped count `t`, and so is its sine
(70_reset_and_hazards.md R228 b). -/
def Obligations.TimeWrapIsSeamlessForExactFrequencies : Prop :=
  ∀ (cfg : Config) (v : Voice) (t : Nat) (pm : Int), 1 ≤ cfg.sampleRate →
    cfg.sampleRate ∣ v.frequency.toNat * 65536 → v.time = BitVec.ofNat 16 t →
    let unwrapped : Int := ((1440 * v.frequency.toNat * t / cfg.sampleRate : Nat) : Int) +
      if v.pmEn then pm else 0
    angleOf cfg v pm % 1440 = unwrapped % 1440 ∧ sine cfg (angleOf cfg v pm) = sine cfg unwrapped

/-! ### TICK -/

/-- 44_sample_producer.md R181: an Idle TICK returns 0 and changes nothing else, no draw consumed; any number of
them in a row leave the state unchanged. -/
def Obligations.IdleTickIsSilent : Prop :=
  (∀ s : State, s.remaining = 0 → exec .tick s = .next (s.answer (.sample 0))) ∧
  ∀ (s : State) (n : Nat), s.remaining = 0 →
    runSteps n (ticking s n) =
      .next { s with host := [], responses := s.responses ++ List.replicate n (.sample 0) }

/-- A Running TICK completes in every state: it decrements the countdown once, gives one sample, and leaves the
masks, N, the configuration and the host's queue alone; a voice that is not enabled, and the registers that
only events write of one that is, are unchanged (44_sample_producer.md R180, R182, R185). -/
def Obligations.RunningTickCompletes : Prop :=
  ∀ s : State, s.remaining ≠ 0 →
    ∃ (t : State) (x : Half), exec .tick s = .next t ∧ t.responses = s.responses ++ [.sample x] ∧
      t.remaining.toNat = s.remaining.toNat - 1 ∧ t.enabledMask = s.enabledMask ∧
      t.mutedMask = s.mutedMask ∧ t.channels = s.channels ∧ t.config = s.config ∧ t.host = s.host ∧
      t.arbitrations = s.arbitrations ∧
      s.noiseDraws ≤ t.noiseDraws ∧ t.noiseDraws ≤ s.noiseDraws + s.channels ∧
      (∀ c, s.enabledMask.getLsbD c = false → t.voice c = s.voice c) ∧
      ∀ c, (t.voice c).frequencyStep = (s.voice c).frequencyStep ∧
        (t.voice c).stepInterval = (s.voice c).stepInterval ∧
        (t.voice c).amplitudeScale = (s.voice c).amplitudeScale ∧
        (t.voice c).pmEn = (s.voice c).pmEn ∧ (t.voice c).pmSrc = (s.voice c).pmSrc ∧
        (t.voice c).amEn = (s.voice c).amEn ∧ (t.voice c).amSrc = (s.voice c).amSrc

/-- 20_memory.md R69: in a Running TICK every enabled voice `c` is stepped once, from its own registers before the
tick, on a state `u` where a read of `V[j].last_sample` gives this tick's value when `j` is lower than `c` (its
frozen value if `j` is not enabled) and the value before the tick when `j` is `c` or higher. Which draw `u` holds is
a free value (log entry 7). -/
def Obligations.ModulationReadsFollowChannelOrder : Prop :=
  ∀ s t : State, s.remaining ≠ 0 → exec .tick s = .next t →
    (∀ j, s.enabledMask.getLsbD j = false → t.lastSample j = s.lastSample j) ∧
    ∀ c, c < s.channels → s.enabledMask.getLsbD c = true →
      ∃ u : State, t.voice c = (voiceStep c u).voice c ∧ u.voice c = s.voice c ∧ u.config = s.config ∧
        u.channels = s.channels ∧
        ∀ j, u.lastSample j = if j < c then t.lastSample j else s.lastSample j

/-- 44_sample_producer.md R183 and R184: the sample of a Running TICK is the sum over every unmuted channel of its
sample after the tick, enabled or frozen, kept exactly and saturated once. -/
def Obligations.TickEmitsTheSaturatedMix : Prop :=
  ∀ s : State, s.remaining ≠ 0 →
    ∃ (t : State) (x : Half), exec .tick s = .next t ∧ t.responses = s.responses ++ [.sample x] ∧
      x.toInt = clip16 (mixOf s t) ∧
      (∀ c, s.enabledMask.getLsbD c = false → t.lastSample c = s.lastSample c) ∧
      (s.channels ≤ 16 → -524288 ≤ mixOf s t ∧ mixOf s t ≤ 524272)

/-- Time(n) gives exactly n Running TICKs: after it and k TICKs the countdown is n - k, 0 from k = n on
(44_sample_producer.md R185). -/
def Obligations.CountdownLastsExactlyItsCount : Prop :=
  ∀ (s : State) (n : Half) (k : Nat),
    ∃ t : State,
      runSteps (k + 1)
        { s with host := hostOpOf (.time n) :: List.replicate k .tick } = .next t ∧
      t.remaining.toNat = n.toNat - k ∧ (t.running = true ↔ k < n.toNat) ∧
      t.responses.length = s.responses.length + 1 + k

/-- The time of an enabled voice counts its computed ticks modulo 2^16: over k TICKs of a segment it advances
by k (10_state.md R33, 43_voice_compute.md R166). -/
def Obligations.TimeCountsComputedTicks : Prop :=
  ∀ (s t : State) (c k : Nat), c < s.channels → s.enabledMask.getLsbD c = true →
    k ≤ s.remaining.toNat → runSteps k (ticking s k) = .next t →
    (t.voice c).time.toNat = ((s.voice c).time.toNat + k) % 65536

/-- A voice that is not enabled is frozen through any number of TICKs, its last sample, time and ramp registers
with it (43_voice_compute.md R168). -/
def Obligations.DisabledVoiceStaysFrozen : Prop :=
  ∀ (s t : State) (c k : Nat), s.enabledMask.getLsbD c = false →
    runSteps k (ticking s k) = .next t → t.voice c = s.voice c

/-- Muting does not reach the voices: two blocks that differ in the muted mask alone, given the same noise
draws, have the same voices, countdown and draws after a TICK (44_sample_producer.md R183, R187). That both take
the same draws is the model's (log entry 7). -/
def Obligations.MutedMaskDoesNotReachTheVoices : Prop :=
  ∀ (s t t' : State) (m : Half), exec .tick s = .next t → exec .tick { s with mutedMask := m } = .next t' →
    t'.voices = t.voices ∧ t'.remaining = t.remaining ∧ t'.noiseDraws = t.noiseDraws ∧
    t'.enabledMask = t.enabledMask

/-- Mask bits N..15 have no effect on a TICK: two blocks whose masks agree below N, given the same noise draws,
end in the same state but for the masks (10_state.md R43, R44; log entry 7 for the draws). -/
def Obligations.MaskBitsBeyondCountAreInert : Prop :=
  ∀ (s t : State) (e m : Half),
    (∀ c, c < s.channels → e.getLsbD c = s.enabledMask.getLsbD c ∧ m.getLsbD c = s.mutedMask.getLsbD c) →
    exec .tick s = .next t →
    exec .tick { s with enabledMask := e, mutedMask := m } =
      .next { t with enabledMask := e, mutedMask := m }

/-! ### The assembly syntax -/

/-- A per-voice line assembles to one event with its kind's code, its channel, RSVD 0 and its number modulo
2^16, or 2^8 for AmplitudeStep, or, on a modulation-source line, the VALUE of `chS`, `off` or the number; a
line whose channel, source or number is out of range is rejected (30_encoding.md R92). -/
def Obligations.PerVoiceLinesAssemble : Prop :=
  (∀ (k : PvKind) (d : Nat) (n : Int),
    (d ≤ 15 → pvAccepts k n →
      ∃ w : Word, assemble (.perVoice k d n) = some [.apply w] ∧ kind w = pvCode k ∧ chan w = d ∧
        rsvd w = 0 ∧ (value w : Int) = if k = .amplitudeStep then n % 256 else n % 65536) ∧
    (15 < d ∨ ¬ pvAccepts k n → assemble (.perVoice k d n) = none)) ∧
  ∀ (k : SourceKind) (d : Nat) (src : SourceOperand),
    (∀ v : Int, d ≤ 15 → sourceValue src = some v →
      ∃ w : Word, assemble (.source k d src) = some [.apply w] ∧ kind w = sourceCode k ∧ chan w = d ∧
        rsvd w = 0 ∧ (value w : Int) = v) ∧
    (15 < d ∨ sourceValue src = none → assemble (.source k d src) = none)

/-- 30_encoding.md R93: each pseudo-operation expands to the listed operations. -/
def Obligations.PseudoOperationsExpand : Prop :=
  (∀ d : Nat, assemble (.noise d) = assemble (.perVoice .setFrequency d 0xFFFF)) ∧
  (∀ d : Nat, assemble (.dc d) = assemble (.perVoice .setFrequency d 0)) ∧
  (∀ d : Nat, assemble (.phaseModOff d) = assemble (.source .phaseModSource d .off) ∧
    assemble (.phaseModOff d) = assemble (.source .phaseModSource d (.num 0xFFFF))) ∧
  (∀ d : Nat, assemble (.ampModOff d) = assemble (.source .amplitudeModSource d .off) ∧
    assemble (.ampModOff d) = assemble (.source .amplitudeModSource d (.num 0xFFFF))) ∧
  (∀ n : Nat, 1 ≤ n → assemble (.run n) = assembleStream [.time n, .tick n]) ∧
  assemble .reset = assemble .endOp
end

