-- ==== Sys2Proof/Laws/PerInstr.lean ====
section
/-! SUPPORT. The per-instruction family `EncodedFields`: what the encoder writes in the KIND and RSVD fields
of an operation's word (30_encoding.md R82, R85). -/

namespace Sys2Proof.Laws.EncodedFields

/-- The KIND code of an operation (30_encoding.md R85); none for TICK, which has no word (R88). -/
def kindCode : Instr → Option Nibble
  | .endEvt => some 0
  | .time _ => some 1
  | .enable _ => some 2
  | .mute _ => some 3
  | .setFrequency _ _ => some 4
  | .frequencyStep _ _ => some 5
  | .phaseModSource _ _ => some 6
  | .setAmplitude _ _ => some 7
  | .amplitudeStep _ _ => some 8
  | .amplitudeModSource _ _ => some 9
  | .amplitudeScale _ _ => some 10
  | .stepInterval _ _ => some 11
  | .unrecognised kind => some kind
  | .tick => none

/-- The encoded word's KIND is the operation's code and its RSVD is 0. -/
def Statement (i : Instr) : Prop :=
  (encode i).map kindField = kindCode i ∧ (encode i).map rsvdField = (kindCode i).map fun _ => 0

/-- The KIND of a word put together from its fields. -/
theorem kindField_eventWord (kind chan : Nibble) (value : Half) :
    kindField (eventWord kind chan value) = kind := by
  ext i hi
  simp only [kindField, eventWord, BitVec.getElem_extractLsb', BitVec.getLsbD_append]
  have h₁ : ¬ 28 + i < 16 := by omega
  have h₂ : ¬ 28 + i - 16 < 8 := by omega
  have h₃ : ¬ 28 + i - 16 - 8 < 4 := by omega
  have h₄ : 28 + i - 16 - 8 - 4 = i := by omega
  simp [h₁, h₂, h₃, h₄, BitVec.getLsbD_eq_getElem hi]

/-- The RSVD of a word put together from its fields. -/
theorem rsvdField_eventWord (kind chan : Nibble) (value : Half) :
    rsvdField (eventWord kind chan value) = 0 := by
  ext i hi
  simp only [rsvdField, eventWord, BitVec.getElem_extractLsb', BitVec.getLsbD_append]
  have h₁ : ¬ 16 + i < 16 := by omega
  simp [h₁, show ¬ 8 ≤ i by omega]

/-- The shared step of every constructor's lemma. -/
theorem of_eventWord (i : Instr) (kind chan : Nibble) (value : Half)
    (h : encode i = some (eventWord kind chan value)) (hk : kindCode i = some kind) : Statement i := by
  simp [Statement, h, hk, kindField_eventWord, rsvdField_eventWord]

theorem endEvt : Statement .endEvt := of_eventWord _ _ _ _ rfl rfl
theorem time (count : Half) : Statement (.time count) := of_eventWord _ _ _ _ rfl rfl
theorem enable (mask : Half) : Statement (.enable mask) := of_eventWord _ _ _ _ rfl rfl
theorem mute (mask : Half) : Statement (.mute mask) := of_eventWord _ _ _ _ rfl rfl
theorem setFrequency (chan : Nibble) (value : Half) : Statement (.setFrequency chan value) :=
  of_eventWord _ _ _ _ rfl rfl
theorem frequencyStep (chan : Nibble) (value : Half) : Statement (.frequencyStep chan value) :=
  of_eventWord _ _ _ _ rfl rfl
theorem phaseModSource (chan : Nibble) (value : Half) : Statement (.phaseModSource chan value) :=
  of_eventWord _ _ _ _ rfl rfl
theorem setAmplitude (chan : Nibble) (value : Half) : Statement (.setAmplitude chan value) :=
  of_eventWord _ _ _ _ rfl rfl
theorem amplitudeStep (chan : Nibble) (value : Half) : Statement (.amplitudeStep chan value) :=
  of_eventWord _ _ _ _ rfl rfl
theorem amplitudeModSource (chan : Nibble) (value : Half) : Statement (.amplitudeModSource chan value) :=
  of_eventWord _ _ _ _ rfl rfl
theorem amplitudeScale (chan : Nibble) (value : Half) : Statement (.amplitudeScale chan value) :=
  of_eventWord _ _ _ _ rfl rfl
theorem stepInterval (chan : Nibble) (value : Half) : Statement (.stepInterval chan value) :=
  of_eventWord _ _ _ _ rfl rfl
theorem unrecognised (kind : Nibble) : Statement (.unrecognised kind) := of_eventWord _ _ _ _ rfl rfl
theorem tick : Statement .tick := ⟨rfl, rfl⟩

end Sys2Proof.Laws.EncodedFields
end

