-- ==== Sys2Proof/Laws/Encoding.lean ====
section
/-! SUPPORT. The fields of a word as numbers, and the fields of a word put together from its fields. -/

namespace Sys2Proof

theorem kindField_toNat (w : Word) : (kindField w).toNat = w.toNat / 2 ^ 28 := by
  have := w.isLt
  simp only [kindField, BitVec.extractLsb'_toNat, Nat.shiftRight_eq_div_pow]
  omega

theorem chanField_eq (w : Word) : chanField w = BitVec.ofNat 4 (w.toNat / 2 ^ 24 % 16) := by
  apply BitVec.eq_of_toNat_eq
  simp [chanField, Nat.shiftRight_eq_div_pow]

theorem valueField_eq (w : Word) : valueField w = BitVec.ofNat 16 (w.toNat % 65536) := by
  apply BitVec.eq_of_toNat_eq
  simp [valueField]

theorem kindField_eq (w : Word) : kindField w = BitVec.ofNat 4 (w.toNat / 2 ^ 28) := by
  apply BitVec.eq_of_toNat_eq
  rw [kindField_toNat, BitVec.toNat_ofNat]
  have := w.isLt
  omega

/-- A word put together from its fields, as a number. -/
theorem eventWord_toNat (kind chan : Nibble) (value : Half) :
    (eventWord kind chan value).toNat = kind.toNat * 2 ^ 28 + chan.toNat * 2 ^ 24 + value.toNat := by
  have h₁ := kind.isLt
  have h₂ := chan.isLt
  have h₃ := value.isLt
  simp only [eventWord, BitVec.toNat_append]
  rw [← Nat.shiftLeft_add_eq_or_of_lt h₂, ← Nat.shiftLeft_add_eq_or_of_lt h₃,
    ← Nat.shiftLeft_add_eq_or_of_lt (0 : Byte).isLt]
  simp only [Nat.shiftLeft_eq, show BitVec.toNat (0 : Byte) = 0 from rfl]
  omega

theorem chanField_eventWord (kind chan : Nibble) (value : Half) :
    chanField (eventWord kind chan value) = chan := by
  apply BitVec.eq_of_toNat_eq
  have h₁ := kind.isLt
  have h₂ := chan.isLt
  have h₃ := value.isLt
  rw [chanField_eq, eventWord_toNat, BitVec.toNat_ofNat]
  omega

theorem valueField_eventWord (kind chan : Nibble) (value : Half) :
    valueField (eventWord kind chan value) = value := by
  apply BitVec.eq_of_toNat_eq
  have h₁ := kind.isLt
  have h₂ := chan.isLt
  have h₃ := value.isLt
  rw [valueField_eq, eventWord_toNat, BitVec.toNat_ofNat]
  omega

end Sys2Proof
end

