-- ==== Sys2Proof/Laws/State.lean ====
section
/-! SUPPORT. The small lemmas of the state's updates, one per field and update, so that no later proof
unfolds one. -/

namespace Sys2Proof.Machine

section Answer
variable (s : State) (r : Response)

@[simp] theorem answer_voices : (s.answer r).voices = s.voices := rfl
@[simp] theorem answer_enabledMask : (s.answer r).enabledMask = s.enabledMask := rfl
@[simp] theorem answer_mutedMask : (s.answer r).mutedMask = s.mutedMask := rfl
@[simp] theorem answer_remaining : (s.answer r).remaining = s.remaining := rfl
@[simp] theorem answer_config : (s.answer r).config = s.config := rfl
@[simp] theorem answer_host : (s.answer r).host = s.host := rfl
@[simp] theorem answer_responses : (s.answer r).responses = s.responses ++ [r] := rfl
@[simp] theorem answer_noiseDraws : (s.answer r).noiseDraws = s.noiseDraws := rfl
@[simp] theorem answer_arbitrations : (s.answer r).arbitrations = s.arbitrations := rfl
@[simp] theorem answer_channels : (s.answer r).channels = s.channels := rfl
@[simp] theorem answer_voice (c : Nat) : (s.answer r).voice c = s.voice c := rfl
@[simp] theorem answer_lastSample (c : Nat) : (s.answer r).lastSample c = s.lastSample c := rfl
@[simp] theorem answer_running : (s.answer r).running = s.running := rfl

end Answer

section SetVoice
variable (s : State) (c : Nat) (v : Voice)

@[simp] theorem setVoice_voices : (s.setVoice c v).voices = s.voices.set c v := rfl
@[simp] theorem setVoice_enabledMask : (s.setVoice c v).enabledMask = s.enabledMask := rfl
@[simp] theorem setVoice_mutedMask : (s.setVoice c v).mutedMask = s.mutedMask := rfl
@[simp] theorem setVoice_remaining : (s.setVoice c v).remaining = s.remaining := rfl
@[simp] theorem setVoice_config : (s.setVoice c v).config = s.config := rfl
@[simp] theorem setVoice_host : (s.setVoice c v).host = s.host := rfl
@[simp] theorem setVoice_responses : (s.setVoice c v).responses = s.responses := rfl
@[simp] theorem setVoice_noiseDraws : (s.setVoice c v).noiseDraws = s.noiseDraws := rfl
@[simp] theorem setVoice_arbitrations : (s.setVoice c v).arbitrations = s.arbitrations := rfl
@[simp] theorem setVoice_running : (s.setVoice c v).running = s.running := rfl

@[simp] theorem setVoice_channels : (s.setVoice c v).channels = s.channels := List.length_set

/-- A write of a voice that exists is read back. -/
theorem voice_setVoice_self (h : c < s.channels) : (s.setVoice c v).voice c = v := by
  have h' : c < (s.voices.set c v).length := by rw [List.length_set]; exact h
  simp [State.voice, List.getD_eq_getElem?_getD, List.getElem?_eq_getElem h']

/-- A write of one voice leaves every other alone (10_state.md R31). -/
theorem voice_setVoice_ne {d : Nat} (h : d ≠ c) : (s.setVoice c v).voice d = s.voice d := by
  simp [State.voice, List.getD_eq_getElem?_getD, List.getElem?_set_ne (Ne.symm h)]

end SetVoice

section ResetState
variable (s : State)

@[simp] theorem resetState_voices : s.resetState.voices = List.replicate s.channels Voice.reset := rfl
@[simp] theorem resetState_enabledMask : s.resetState.enabledMask = 0 := rfl
@[simp] theorem resetState_mutedMask : s.resetState.mutedMask = 0 := rfl
@[simp] theorem resetState_remaining : s.resetState.remaining = 0 := rfl
@[simp] theorem resetState_config : s.resetState.config = s.config := rfl
@[simp] theorem resetState_host : s.resetState.host = s.host := rfl
@[simp] theorem resetState_responses : s.resetState.responses = s.responses := rfl
@[simp] theorem resetState_noiseDraws : s.resetState.noiseDraws = s.noiseDraws := rfl
@[simp] theorem resetState_arbitrations : s.resetState.arbitrations = s.arbitrations := rfl

@[simp] theorem resetState_channels : s.resetState.channels = s.channels := List.length_replicate

end ResetState

section VoiceFields
variable (cfg : Config) (v : Voice) (am pm r : Int)

@[simp] theorem voiceAfter_lastSample :
    (voiceAfter cfg v am pm r).lastSample = BitVec.ofInt 16 (sat16 (rawSample cfg v am pm r)) := rfl
@[simp] theorem voiceAfter_time : (voiceAfter cfg v am pm r).time = v.time + 1 := rfl
@[simp] theorem voiceAfter_frequency : (voiceAfter cfg v am pm r).frequency = (ramp cfg v).frequency := rfl
@[simp] theorem voiceAfter_amplitude : (voiceAfter cfg v am pm r).amplitude = (ramp cfg v).amplitude := rfl
@[simp] theorem voiceAfter_amplitudeStep :
    (voiceAfter cfg v am pm r).amplitudeStep = (ramp cfg v).amplitudeStep := rfl

end VoiceFields

end Sys2Proof.Machine
end

