-- ==== Sys2Proof/Laws/Ops.lean ====
section
/-! SUPPORT. For each shared operation, once, everything it can do. -/

namespace Sys2Proof.Machine

/-- Running is a nonzero countdown (10_state.md R46). -/
theorem running_iff (s : State) : s.running = true ↔ s.remaining ≠ 0 := by
  simp [State.running]

/-- Idle is a zero countdown (10_state.md R46). -/
theorem idle_iff (s : State) : s.running = false ↔ s.remaining = 0 := by
  simp [State.running]

/-- Every clamped value lies within its bounds. -/
theorem clamp_bounds (v : Int) {lo hi : Int} (h : lo ≤ hi) :
    lo ≤ clamp v lo hi ∧ clamp v lo hi ≤ hi := by
  unfold clamp; split <;> [skip; split] <;> omega

/-- A value within the bounds is not changed. -/
theorem clamp_of_mem {v lo hi : Int} (h₁ : lo ≤ v) (h₂ : v ≤ hi) : clamp v lo hi = v := by
  unfold clamp; split <;> [skip; split] <;> omega

/-- A saturated sample fits a signed 16-bit register and is read back whole. -/
theorem sext_ofInt_sat16 (v : Int) : sext (BitVec.ofInt 16 (sat16 v)) = sat16 v := by
  have h := clamp_bounds v (show (-32768 : Int) ≤ 32767 by decide)
  rw [sext, BitVec.toInt_ofInt, sat16]
  exact Int.bmod_eq_of_le (by omega) (by omega)

theorem gated_running {s : State} (h : s.remaining ≠ 0) (body : State → Result) :
    s.gated body = .next (s.answer (.status .busy)) := by
  simp [State.gated, (running_iff s).2 h, State.raise]

theorem gated_idle {s : State} (h : s.remaining = 0) (body : State → Result) :
    s.gated body = body s := by
  simp [State.gated, (idle_iff s).2 h]

/-- All that a per-voice event can do: Busy, InvalidChannel, or its body on voice CHAN. -/
theorem perVoice_cases (s : State) (chan : Nibble) (body : Nat → State → Result) :
    (s.remaining ≠ 0 ∧ s.perVoice chan body = .next (s.answer (.status .busy))) ∨
    (s.remaining = 0 ∧ s.channels ≤ chan.toNat ∧
      s.perVoice chan body = .next (s.answer (.status .invalidChannel))) ∨
    (s.remaining = 0 ∧ chan.toNat < s.channels ∧ s.perVoice chan body = body chan.toNat s) := by
  by_cases h : s.remaining = 0
  · by_cases hc : s.channels ≤ chan.toNat
    · exact .inr (.inl ⟨h, hc, by simp [State.perVoice, gated_idle h, hc, State.raise]⟩)
    · exact .inr (.inr ⟨h, by omega, by simp [State.perVoice, gated_idle h, hc]⟩)
  · exact .inl ⟨h, gated_running h _⟩

/-- All that selecting a source can do: write Disabled, write a valid channel, or reject. -/
theorem selectSource_cases (s : State) (c : Nat) (src : ModSource) (put : Bool → Nibble → Voice → Voice) :
    (src = .disabled ∧ s.selectSource c src put = s.updateVoice c (put false 0)) ∨
    (∃ idx, src = .channel idx ∧ s.channels ≤ idx.toNat ∧
      s.selectSource c src put = .next (s.answer (.status .invalidChannel))) ∨
    (∃ idx, src = .channel idx ∧ idx.toNat < s.channels ∧
      s.selectSource c src put = s.updateVoice c (put true idx)) := by
  cases src with
  | disabled => exact .inl ⟨rfl, rfl⟩
  | channel idx =>
    by_cases h : s.channels ≤ idx.toNat
    · exact .inr (.inl ⟨idx, rfl, h, by simp [State.selectSource, h, State.raise]⟩)
    · exact .inr (.inr ⟨idx, rfl, by omega, by simp [State.selectSource, h]⟩)

/-- All that one step can do, by the host's oldest operation. -/
theorem step_cases (s : State) :
    (s.host = [] ∧ step s = .next s) ∨
    (∃ w rest, s.host = .apply w :: rest ∧ step s = exec (decodeWord w) { s with host := rest }) ∨
    (∃ rest, s.host = .tick :: rest ∧ step s = execTick { s with host := rest }) ∨
    (∃ offered rest, s.host = .rst offered :: rest ∧ step s = .next { s with host := rest }.resetState) ∨
    (∃ w rest, s.host = .together w :: rest ∧ step s = s.serialise w rest) := by
  unfold step
  split <;> rename_i h <;> simp [h, exec, State.rst]

/-- A run is its first step and then the rest of the run. -/
theorem runSteps_succ (n : Nat) {s t : State} (h : step s = .next t) : runSteps (n + 1) s = runSteps n t := by
  simp only [runSteps, h]

/-- A TICK of an idle block emits 0, and one of a running block runs the loop (44_sample_producer.md R180). -/
theorem execTick_cases (s : State) :
    (s.remaining = 0 ∧ execTick s = .next (s.answer (.sample 0))) ∨
    (s.remaining ≠ 0 ∧ execTick s =
      .next (State.answer { (tickLoop s.channels s).1 with
          remaining := (tickLoop s.channels s).1.remaining - 1 }
        (.sample (BitVec.ofInt 16 (sat16 (tickLoop s.channels s).2))))) := by
  by_cases h : s.remaining = 0
  · exact .inl ⟨h, by simp [execTick, (idle_iff s).2 h, State.emit]⟩
  · exact .inr ⟨h, by simp [execTick, (running_iff s).2 h, State.emit]⟩

/-- The loop over one more channel is that channel's turn after the loop so far. -/
theorem tickLoop_succ (n : Nat) (s : State) : tickLoop (n + 1) s = tickChannel (tickLoop n s) n := by
  simp [tickLoop, List.range_succ]

theorem tickLoop_zero (s : State) : tickLoop 0 s = (s, 0) := rfl

/-- The parts of the state that no VoiceStep writes. -/
theorem voiceStep_rest (c : Nat) (s : State) :
    (voiceStep c s).enabledMask = s.enabledMask ∧ (voiceStep c s).mutedMask = s.mutedMask ∧
    (voiceStep c s).remaining = s.remaining ∧ (voiceStep c s).config = s.config ∧
    (voiceStep c s).host = s.host ∧ (voiceStep c s).responses = s.responses ∧
    (voiceStep c s).arbitrations = s.arbitrations ∧ (voiceStep c s).channels = s.channels :=
  ⟨rfl, rfl, rfl, rfl, rfl, rfl, rfl, List.length_set⟩

/-- Construction gives the fresh block or refuses, and nothing else (70_reset_and_hazards.md R223). -/
theorem construct_cases (n : Nat) (cfg : Config) :
    ((Config.validCount n && cfg.valid) = true ∧ construct n cfg = .next (State.fresh n cfg)) ∨
    ((Config.validCount n && cfg.valid) = false ∧
      construct n cfg = .refused .invalidConfiguration) := by
  cases h : (Config.validCount n && cfg.valid) <;> simp [construct, h]

end Sys2Proof.Machine
end

