-- ==== Sys2Proof/Laws/Events.lean ====
section
/-! SUPPORT. Each gated event as the shared operation it is an application of, so that what the shared
operation can do is cited and the meaning is not unfolded again; and a per-voice event accepted. -/

namespace Sys2Proof.Machine

variable (s : State) (chan kind : Nibble) (value mask : Half)

theorem exec_enable : exec (.enable mask) s =
    s.gated fun s => State.respond { s with enabledMask := mask } .ok := rfl

theorem exec_mute : exec (.mute mask) s =
    s.gated fun s => State.respond { s with mutedMask := mask } .ok := rfl

theorem exec_unrecognised : exec (.unrecognised kind) s = s.gated fun s => s.raise .invalidEvent := rfl

theorem exec_setFrequency : exec (.setFrequency chan value) s =
    s.perVoice chan fun c s => s.updateVoice c fun v => { v with frequency := value, time := 0 } := rfl

theorem exec_frequencyStep : exec (.frequencyStep chan value) s =
    s.perVoice chan fun c s => s.updateVoice c fun v => { v with frequencyStep := value } := rfl

theorem exec_phaseModSource : exec (.phaseModSource chan value) s =
    s.perVoice chan fun c s =>
      s.selectSource c (operandSource value) fun en src v => { v with pmEn := en, pmSrc := src } := rfl

theorem exec_setAmplitude : exec (.setAmplitude chan value) s =
    s.perVoice chan fun c s => s.updateVoice c fun v => { v with amplitude := operandByte value } := rfl

theorem exec_amplitudeStep : exec (.amplitudeStep chan value) s =
    s.perVoice chan fun c s => s.updateVoice c fun v => { v with amplitudeStep := operandByte value } := rfl

theorem exec_amplitudeModSource : exec (.amplitudeModSource chan value) s =
    s.perVoice chan fun c s =>
      s.selectSource c (operandSource value) fun en src v => { v with amEn := en, amSrc := src } := rfl

theorem exec_amplitudeScale : exec (.amplitudeScale chan value) s =
    s.perVoice chan fun c s =>
      match operandScale value with
      | none => s.raise .outOfRange
      | some shift => s.updateVoice c fun v => { v with amplitudeScale := shift } := rfl

theorem exec_stepInterval : exec (.stepInterval chan value) s =
    s.perVoice chan fun c s => s.updateVoice c fun v => { v with stepInterval := value } := rfl

/-- An Idle per-voice event on a channel that exists is its body on that voice. -/
theorem perVoice_accepted {s : State} {chan : Nibble} (h : s.remaining = 0) (hc : chan.toNat < s.channels)
    (body : Nat → State → Result) : s.perVoice chan body = body chan.toNat s := by
  rcases perVoice_cases s chan body with ⟨a, _⟩ | ⟨_, b, _⟩ | ⟨_, _, e⟩
  · exact absurd h a
  · omega
  · exact e

end Sys2Proof.Machine
end

