-- ==== Sys2Proof/Laws/Tick.lean ====
section
/-! SUPPORT. What the loop of TICK does, once: the parts it leaves alone, the voices it has not reached, the
voices it has passed. -/

namespace Sys2Proof.Machine

/-- A VoiceStep leaves every other voice alone (20_memory.md R63). -/
theorem voiceStep_voice_ne {c d : Nat} (s : State) (h : d ≠ c) : (voiceStep c s).voice d = s.voice d :=
  voice_setVoice_ne s c _ h

/-- A VoiceStep writes its voice whole. -/
theorem voiceStep_voice_self {c : Nat} (s : State) (h : c < s.channels) :
    (voiceStep c s).voice c =
      voiceAfter s.config (s.voice c) (s.lastSample (s.voice c).amSrc.toNat)
        (s.lastSample (s.voice c).pmSrc.toNat) s.draw :=
  voice_setVoice_self s c _ h

/-- One turn of the loop on the state: a VoiceStep of an enabled channel, nothing otherwise. -/
theorem tickChannel_state (p : State × Int) (c : Nat) :
    (tickChannel p c).1 = if p.1.enabledMask.getLsbD c then voiceStep c p.1 else p.1 := rfl

/-- The parts of the state that no turn of the loop writes. -/
theorem tickLoop_rest (n : Nat) (s : State) :
    (tickLoop n s).1.enabledMask = s.enabledMask ∧ (tickLoop n s).1.mutedMask = s.mutedMask ∧
    (tickLoop n s).1.remaining = s.remaining ∧ (tickLoop n s).1.config = s.config ∧
    (tickLoop n s).1.host = s.host ∧ (tickLoop n s).1.responses = s.responses ∧
    (tickLoop n s).1.arbitrations = s.arbitrations ∧ (tickLoop n s).1.channels = s.channels := by
  induction n with
  | zero => exact ⟨rfl, rfl, rfl, rfl, rfl, rfl, rfl, rfl⟩
  | succ n ih =>
    rw [tickLoop_succ, tickChannel_state]
    split
    · have h := voiceStep_rest n (tickLoop n s).1
      simp only [h]
      exact ih
    · exact ih

/-- A turn of the loop writes no voice but its channel's. -/
theorem tickLoop_succ_voice_ne {n d : Nat} (s : State) (h : d ≠ n) :
    (tickLoop (n + 1) s).1.voice d = (tickLoop n s).1.voice d := by
  rw [tickLoop_succ, tickChannel_state]
  split
  · exact voiceStep_voice_ne _ h
  · rfl

/-- A voice the loop has not reached is as it was (20_memory.md R69). -/
theorem tickLoop_voice_later {n d : Nat} (s : State) (h : n ≤ d) : (tickLoop n s).1.voice d = s.voice d := by
  induction n with
  | zero => rfl
  | succ n ih => rw [tickLoop_succ_voice_ne s (by omega), ih (by omega)]

/-- A voice the loop has passed is not written again (44_sample_producer.md R183). -/
theorem tickLoop_voice_passed {n m d : Nat} (s : State) (h : d < n) (hm : n ≤ m) :
    (tickLoop m s).1.voice d = (tickLoop n s).1.voice d := by
  induction m, hm using Nat.le_induction with
  | base => rfl
  | succ m hm ih => rw [tickLoop_succ_voice_ne s (by omega), ih]

/-- The voice a turn of the loop steps, or leaves, as the loop finds it. -/
theorem tickLoop_voice_turn {n : Nat} (s : State) :
    (tickLoop (n + 1) s).1.voice n =
      if s.enabledMask.getLsbD n then (voiceStep n (tickLoop n s).1).voice n else s.voice n := by
  rw [tickLoop_succ, tickChannel_state, (tickLoop_rest n s).1]
  split
  · rfl
  · exact tickLoop_voice_later s (Nat.le_refl n)

end Sys2Proof.Machine
end

