-- ==== Sys2Proof/Laws/Voice.lean ====
section
/-! SUPPORT. For the parts of VoiceStep and of the sine approximator, once, everything each can do. -/

namespace Sys2Proof.Machine

/-- The folded index is one of the table's 360 (20_memory.md R61). -/
theorem fold_bounds (a : Int) :
    0 ≤ quarterFold (halfFold (a % 1440)) ∧ quarterFold (halfFold (a % 1440)) ≤ 359 := by
  unfold quarterFold halfFold
  split <;> split <;> omega

/-- A table read is 0 or an entry of the table. -/
theorem lutRead_cases (cfg : Config) (i : Int) :
    lutRead cfg i = 0 ∨ ∃ m ∈ cfg.sineLut, lutRead cfg i = (m : Int) := by
  unfold lutRead
  rw [List.getD_eq_getElem?_getD]
  cases h : cfg.sineLut[i.toNat]? with
  | none => exact .inl rfl
  | some m => exact .inr ⟨m, List.mem_of_getElem? h, rfl⟩

/-- The modes as propositions about the frequency (10_state.md R34). -/
theorem modeOf_cases (f : Half) :
    (f = 0 ∧ modeOf f = .dc) ∨ (f = 0xFFFF ∧ modeOf f = .noise) ∨
    (f ≠ 0 ∧ f ≠ 0xFFFF ∧ modeOf f = .tone) := by
  by_cases h₀ : f = 0
  · exact .inl ⟨h₀, if_pos h₀⟩
  · by_cases h₁ : f = 0xFFFF
    · exact .inr (.inl ⟨h₁, by rw [modeOf, if_neg h₀, if_pos h₁]⟩)
    · exact .inr (.inr ⟨h₀, h₁, by rw [modeOf, if_neg h₀, if_neg h₁]⟩)

/-- All that the ramp of the frequency can do (43_voice_compute.md R162). -/
theorem rampFrequency_cases (cfg : Config) (v : Voice) :
    (v.frequencyStep = 0 ∧ rampFrequency cfg v = v) ∨
    (v.frequencyStep ≠ 0 ∧ rampFrequency cfg v =
      { v with
        frequency :=
          BitVec.ofInt 16 (clamp (zext v.frequency + v.frequencyStep.toInt) 0 (zext cfg.maxFrequency)) }) := by
  by_cases h : v.frequencyStep = 0
  · exact .inl ⟨h, if_pos h⟩
  · exact .inr ⟨h, if_neg h⟩

/-- All that the ramp of the amplitude can do (43_voice_compute.md R163). -/
theorem rampAmplitude_cases (v : Voice) :
    (v.amplitudeStep = 0 ∧ rampAmplitude v = v) ∨
    (v.amplitudeStep ≠ 0 ∧ zext v.amplitude + v.amplitudeStep.toInt < 0 ∧
      rampAmplitude v = { v with amplitude := 0, amplitudeStep := 0 }) ∨
    (v.amplitudeStep ≠ 0 ∧ 255 < zext v.amplitude + v.amplitudeStep.toInt ∧
      rampAmplitude v = { v with amplitude := 255, amplitudeStep := 0 }) ∨
    (v.amplitudeStep ≠ 0 ∧ 0 ≤ zext v.amplitude + v.amplitudeStep.toInt ∧
      zext v.amplitude + v.amplitudeStep.toInt ≤ 255 ∧
      rampAmplitude v = { v with
        amplitude := BitVec.ofInt 8 (zext v.amplitude + v.amplitudeStep.toInt) }) := by
  by_cases h : v.amplitudeStep = 0
  · exact .inl ⟨h, if_pos h⟩
  · by_cases h₀ : zext v.amplitude + v.amplitudeStep.toInt < 0
    · exact .inr (.inl ⟨h, h₀, (if_neg h).trans (if_pos h₀)⟩)
    · by_cases h₁ : 255 < zext v.amplitude + v.amplitudeStep.toInt
      · exact .inr (.inr (.inl ⟨h, h₁, (if_neg h).trans ((if_neg h₀).trans (if_pos h₁))⟩))
      · exact .inr (.inr (.inr ⟨h, Int.not_lt.1 h₀, Int.not_lt.1 h₁,
          (if_neg h).trans ((if_neg h₀).trans (if_neg h₁))⟩))

/-- The registers of a voice that no ramp writes. -/
theorem ramp_rest (cfg : Config) (v : Voice) :
    (ramp cfg v).lastSample = v.lastSample ∧ (ramp cfg v).time = v.time ∧
    (ramp cfg v).frequencyStep = v.frequencyStep ∧ (ramp cfg v).stepInterval = v.stepInterval ∧
    (ramp cfg v).amplitudeScale = v.amplitudeScale ∧ (ramp cfg v).pmEn = v.pmEn ∧
    (ramp cfg v).pmSrc = v.pmSrc ∧ (ramp cfg v).amEn = v.amEn ∧ (ramp cfg v).amSrc = v.amSrc := by
  unfold ramp
  split
  · rcases rampAmplitude_cases (rampFrequency cfg v) with ⟨_, e⟩ | ⟨_, _, e⟩ | ⟨_, _, e⟩ | ⟨_, _, _, e⟩ <;>
      rw [e] <;> rcases rampFrequency_cases cfg v with ⟨_, e⟩ | ⟨_, e⟩ <;> rw [e] <;>
      exact ⟨rfl, rfl, rfl, rfl, rfl, rfl, rfl, rfl, rfl⟩
  · exact ⟨rfl, rfl, rfl, rfl, rfl, rfl, rfl, rfl, rfl⟩

/-- The well-formed states, voice by voice (10_state.md R42). -/
theorem wf_iff (s : State) :
    s.wf = true ↔ Config.validCount s.channels = true ∧ s.config.valid = true ∧
      ∀ c, c < s.channels → (s.voice c).wf s.channels = true := by
  rw [State.wf, Bool.and_eq_true, Bool.and_eq_true, List.all_eq_true, and_assoc]
  refine and_congr Iff.rfl (and_congr Iff.rfl ⟨fun h c hc => h _ ?_, fun h v hv => ?_⟩)
  · rw [State.voice, List.getD_eq_getElem?_getD, List.getElem?_eq_getElem hc]
    exact List.getElem_mem _
  · obtain ⟨c, hc, rfl⟩ := List.getElem_of_mem hv
    have := h c hc
    rw [State.voice, List.getD_eq_getElem?_getD, List.getElem?_eq_getElem hc] at this
    exact this

/-- An accepted per-voice write is a next state with that voice replaced and the answer Ok. -/
theorem updateVoice_eq (s : State) (c : Nat) (f : Voice → Voice) :
    s.updateVoice c f = .next ((s.setVoice c (f (s.voice c))).answer (.status .ok)) := rfl

end Sys2Proof.Machine
end

