-- ==== Sys2Proof/Tests/Slice0.lean ====
section
/-! SUPPORT. Tests with expected values from the spec (95_test_vectors.md, 30_encoding.md R94), and for every
obligation with hypotheses a witness that they can be met, clause by clause. -/

namespace Sys2Proof.Tests

open Sys2Proof.Machine Sys2Proof.Listing

/-! ### Helpers -/

/-- An Idle block of two voices under the reference configuration. -/
def two : State := State.fresh 2 Config.reference

/-- The same block, Running with five samples to go. -/
def busy : State := { two with remaining := 5 }

/-- The state after an operation, the given one if there is none. -/
def after (s : State) (o : Result) : State :=
  match o with
  | .next t => t
  | .fault _ => s
  | .refused _ => s

/-- The state after APPLY of a word. -/
def applied (w : Word) (s : State) : State := after s (step { s with host := [.apply w] })

/-- The status of an APPLY of a word. -/
def statusOf (w : Word) (s : State) : Option Response := (applied w s).responses.getLast?

/-- The state after a TICK. -/
def ticked (s : State) : State := after s (step { s with host := [.tick] })

/-- The sample of a TICK. -/
def sampleOf (s : State) : Option Response := (ticked s).responses.getLast?

/-- A block with the given last samples, under the reference configuration. -/
def frozen (samples : List Int) : State :=
  { State.fresh samples.length Config.reference with
    voices := samples.map fun x => { Voice.reset with lastSample := BitVec.ofInt 16 x }, remaining := 1 }

/-- The last sample a voice stores, given its modulators' samples and a draw. -/
def stored (v : Voice) (am pm r : Int) : Int := (voiceAfter Config.reference v am pm r).lastSample.toInt

/-- A DC voice of the given amplitude and scale. -/
def dc (amplitude : Byte) (scale : BitVec 5) : Voice :=
  { Voice.reset with amplitude := amplitude, amplitudeScale := scale }

/-- A voice of the given frequency, time, amplitude and scale. -/
def voice (frequency time : Half) (amplitude : Byte) (scale : BitVec 5) : Voice :=
  { Voice.reset with frequency := frequency, time := time, amplitude := amplitude, amplitudeScale := scale }

/-- Frequency and its step after a ramp tick (95_test_vectors.md §2.6). -/
def frequencyRamped (frequency : Half) (step : Int) : Nat × Int :=
  let v := voiceAfter Config.reference
    { Voice.reset with frequency := frequency, frequencyStep := BitVec.ofInt 16 step, stepInterval := 1 } 0 0 0
  (v.frequency.toNat, v.frequencyStep.toInt)

/-- Amplitude and its step after a ramp tick (95_test_vectors.md §2.6). -/
def amplitudeRamped (amplitude : Byte) (step : Int) : Nat × Int :=
  let v := voiceAfter Config.reference
    { Voice.reset with amplitude := amplitude, amplitudeStep := BitVec.ofInt 8 step, stepInterval := 1 } 0 0 0
  (v.amplitude.toNat, v.amplitudeStep.toInt)

/-- The Idle block with the given voice in channel 1. -/
def one (v : Voice) : State := two.setVoice 1 v

/-! ### Well-formedness -/

/-- The reference configuration and N at both its bounds are valid (00_scope.md R7 to R10). -/
theorem test_reference_is_valid :
    (Config.validCount 1 && Config.reference.valid) = true ∧
    (Config.validCount 16 && Config.reference.valid) = true := by decide +kernel

theorem test_wellFormed_refuses_a_named_kind : (Instr.unrecognised 11).wellFormed = false := by decide

theorem test_wellFormed_admits_the_reserved_kinds :
    (Instr.unrecognised 12).wellFormed = true ∧ (Instr.unrecognised 15).wellFormed = true := by decide

theorem test_wf_refuses_a_source_beyond_the_count :
    (two.setVoice 0 { Voice.reset with amEn := true, amSrc := 2 }).wf = false ∧
    (two.setVoice 0 { Voice.reset with pmEn := true, pmSrc := 2 }).wf = false := by decide +kernel

theorem test_wf_refuses_a_bad_configuration :
    (State.fresh 0 Config.reference).wf = false ∧ (State.fresh 17 Config.reference).wf = false ∧
    (State.fresh 1 { Config.reference with sampleRate := 0 }).wf = false ∧
    (State.fresh 1 { Config.reference with sineLut := [0] }).wf = false := by decide

theorem test_config_refuses_a_table_entry_of_255 :
    Config.valid { Config.reference with sineLut := 255 :: Config.reference.sineLut.tail } = false := by decide +kernel

/-! ### Decoding: each word written out from the encoding of 30_encoding.md R80 and R85 -/

theorem test_decode_end : decodeWord 0x0F5AFFFF = .endEvt := by decide
theorem test_decode_time : decodeWord 0x10000002 = .time 2 := by decide
theorem test_decode_enable : decodeWord 0x2F00FFFF = .enable 0xFFFF := by decide
theorem test_decode_mute : decodeWord 0x30000002 = .mute 2 := by decide
theorem test_decode_setFrequency : decodeWord 0x410003E8 = .setFrequency 1 1000 := by decide
theorem test_decode_frequencyStep : decodeWord 0x50008000 = .frequencyStep 0 0x8000 := by decide
theorem test_decode_phaseModSource : decodeWord 0x61000000 = .phaseModSource 1 0 := by decide
theorem test_decode_setAmplitude : decodeWord 0x705A0005 = .setAmplitude 0 5 := by decide
theorem test_decode_amplitudeStep : decodeWord 0x80000080 = .amplitudeStep 0 0x80 := by decide
theorem test_decode_amplitudeModSource : decodeWord 0x9000FFFF = .amplitudeModSource 0 0xFFFF := by decide
theorem test_decode_amplitudeScale : decodeWord 0xA100001F = .amplitudeScale 1 31 := by decide
theorem test_decode_stepInterval : decodeWord 0xB0000001 = .stepInterval 0 1 := by decide
theorem test_decode_unrecognised : decodeWord 0xC0000000 = .unrecognised 12 := by decide
theorem test_decode_unrecognised_last : decodeWord 0xF0000000 = .unrecognised 15 := by decide

/-- The fields of one word bit by bit: KIND 0101, CHAN 0010, RSVD 0, VALUE 0xFF9C (30_encoding.md R94). -/
theorem test_decode_bits :
    decodeWord 0b0101_0010_00000000_1111111110011100#32 = .frequencyStep 2 0xFF9C := by decide

theorem test_table_word : decodeTableWord 32 0x7F0000FF = some (.setAmplitude 15 0xFF) := by decide
theorem test_table_word_no_bits : decodeTableWord 0 0 = some .tick := by decide
theorem test_table_word_short : decodeTableWord 8 0xFF = some .endEvt := by decide
theorem test_table_word_too_long : decodeTableWord 40 0 = none := by decide

/-- Bits 7:0 go first (20_memory.md R64). -/
theorem test_transport_bytes :
    decodeBytes [0xE8, 0x03, 0x00, 0x41, 0x07] = .ok (.setFrequency 1 1000, [0x07]) := by decide

theorem test_encode : encode (.phaseModSource 15 0xFFFF) = some 0x6F00FFFF := by decide

/-! ### The assembler (30_encoding.md R92 to R94) -/

theorem test_assemble_negative_steps :
    assemble (.perVoice .amplitudeStep 1 (-1)) = some [.apply 0x810000FF] ∧
    assemble (.perVoice .frequencyStep 2 (-100)) = some [.apply 0x5200FF9C] := by decide

theorem test_assemble_pseudo :
    assemble (.noise 3) = some [.apply 0x4300FFFF] ∧ assemble (.phaseModOff 15) = some [.apply 0x6F00FFFF] ∧
    assemble (.run 2) = some [.apply 0x10000002, .tick, .tick] := by decide

theorem test_assemble_rejects :
    assemble (.time 65536) = none ∧ assemble (.perVoice .amplitudeStep 0 128) = none ∧
    assemble (.perVoice .setAmplitude 16 0) = none ∧
    assemble (.perVoice .amplitudeScale 0 32) = some [.apply 0xA0000020] := by decide

/-! ### The dispatcher (95_test_vectors.md §2.2) -/

theorem test_DV1_end_while_running :
    (applied 0x00000000 busy).remaining = 0 ∧ statusOf 0x00000000 busy = some (.status .ok) := by decide

theorem test_end_clears_the_voices :
    (applied 0x00000000 (frozen [1, 2])).voices = [Voice.reset, Voice.reset] := by decide

theorem test_DV2_time_zero : (applied 0x10000000 busy).remaining = 0 := by decide
theorem test_DV3_time_replaces : (applied 0x10000009 busy).remaining = 9 := by decide

theorem test_DV4_enable_busy :
    statusOf 0x20000001 busy = some (.status .busy) ∧ (applied 0x20000001 busy).enabledMask = 0 := by decide

theorem test_DV9_enable_ignores_channel :
    statusOf 0x2F00FFFF two = some (.status .ok) ∧ (applied 0x2F00FFFF two).enabledMask = 0xFFFF := by decide

theorem test_DV10_mute : (applied 0x30000003 two).mutedMask = 3 := by decide

theorem test_DV6_unrecognised_busy : statusOf 0xF0000000 busy = some (.status .busy) := by decide

theorem test_DV8_unrecognised : statusOf 0xC0000000 two = some (.status .invalidEvent) := by decide

theorem test_DV11_channel :
    statusOf 0x72000001 two = some (.status .invalidChannel) ∧
    statusOf 0x75000001 busy = some (.status .busy) := by decide

theorem test_DV14_channel_15 : ((applied 0x7F000001 State.reset).voice 15).amplitude = 1 := by decide

/-! ### The per-voice events (95_test_vectors.md §2.3) -/

theorem test_PV1_setFrequency :
    (applied 0x400003E8 (two.setVoice 0 (voice 5 77 0 0))).voice 0 = voice 1000 0 0 0 := by decide

theorem test_PV2_setFrequency_above_max : ((applied 0x40004E20 two).voice 0).frequency = 20000 := by decide

theorem test_PV3_PV4_frequencyStep :
    ((applied 0x50008000 two).voice 0).frequencyStep.toInt = -32768 ∧
    ((applied 0x50007FFF two).voice 0).frequencyStep.toInt = 32767 := by decide

theorem test_PV6_phaseModSource_low_nibble :
    (applied 0x60000010 two).voice 0 = { Voice.reset with pmEn := true, pmSrc := 0 } := by decide

theorem test_PV8_PV9_phaseModSource :
    statusOf 0x6000FFFE two = some (.status .invalidChannel) ∧
    (applied 0x6000FFFF (two.setVoice 0 { Voice.reset with pmEn := true, pmSrc := 1 })).voice 0 =
      Voice.reset := by decide

theorem test_PV10_PV11_setAmplitude :
    ((applied 0x70000100 two).voice 0).amplitude = 0 ∧
    ((applied 0x700001FF two).voice 0).amplitude = 255 := by decide

theorem test_PV14_PV15_amplitudeStep :
    ((applied 0x80000080 two).voice 0).amplitudeStep.toInt = -128 ∧
    ((applied 0x800001FF two).voice 0).amplitudeStep.toInt = -1 := by decide

theorem test_PV16_amplitudeModSource_self :
    (applied 0x90000000 two).voice 0 = { Voice.reset with amEn := true, amSrc := 0 } := by decide

theorem test_amplitudeModSource_off :
    (applied 0x9000FFFF (two.setVoice 0 { Voice.reset with amEn := true, amSrc := 1 })).voice 0 =
      Voice.reset := by decide

theorem test_PV17_amplitudeScale : ((applied 0xA000001F two).voice 0).amplitudeScale = 31 := by decide

theorem test_PV18_PV19_DV12_amplitudeScale :
    statusOf 0xA0000020 two = some (.status .outOfRange) ∧
    statusOf 0xA000FFFF two = some (.status .outOfRange) ∧
    statusOf 0xA5000028 two = some (.status .invalidChannel) := by decide

theorem test_PV20_stepInterval :
    (applied 0xB0000004 (two.setVoice 0 (voice 0 9 0 0))).voice 0 =
      { voice 0 9 0 0 with stepInterval := 4 } := by decide

/-! ### The sine approximator (95_test_vectors.md §2.4) -/

theorem test_lutRef_sum : Config.lutRef.length = 360 ∧ Config.lutRef.sum = 58080 := by decide +kernel

theorem test_sine_first_half :
    [0, 1, 45, 90, 180, 359, 360, 361, 540, 719].map (sine Config.reference) =
      [0, 1, 50, 97, 180, 254, 254, 254, 179, 0] := by decide

theorem test_sine_second_half :
    [720, 721, 900, 1079, 1080, 1081, 1260, 1439].map (sine Config.reference) =
      [0, -1, -180, -254, -254, -254, -179, 0] := by decide

theorem test_sine_outside_the_circle :
    [1440, 2925, -1, -45, -1440, -3200, 3232].map (sine Config.reference) =
      [0, 50, 0, -48, 0, -250, 254] := by decide

/-! ### VoiceStep (95_test_vectors.md §2.5, §2.6) -/

theorem test_VC1_to_VC4_dc :
    [stored (dc 100 0) 0 0 0, stored (dc 100 2) 0 0 0, stored (dc 0 0) 0 0 0, stored (dc 255 31) 0 0 0] =
      [100, 25, 0, 0] := by decide

theorem test_VC5_to_VC8_amplitude_modulation :
    [stored { dc 10 1 with amEn := true } (-30) 0 0, stored { dc 30 0 with amEn := true } (-30) 0 0,
      stored { dc 0 4 with amEn := true } (-1) 0 0, stored { dc 255 0 with amEn := true } 32767 0 0] =
      [-10, 0, -1, 32767] := by decide

theorem test_VC9_to_VC15_tone :
    [stored (voice 1000 1 255 8) 0 0 0, stored (voice 1000 8 255 8) 0 0 0, stored (voice 1000 24 255 8) 0 0 0,
      stored { voice 1000 3 255 8 with pmEn := true } 0 (-200) 0, stored (voice 16000 7 255 0) 0 0 0,
      stored (voice 65534 65535 255 8) 0 0 0, stored (voice 1000 1 0 0) 0 0 0] =
      [49, 253, -254, -70, 0, -128, 0] := by decide

theorem test_VC16_to_VC20_noise :
    [stored (voice 0xFFFF 0 255 0) 0 0 (-256), stored (voice 0xFFFF 0 255 8) 0 0 100,
      stored (voice 0xFFFF 0 200 4) 0 0 (-256),
      stored { voice 0xFFFF 0 255 0 with amEn := true } 32767 0 255, stored (voice 0xFFFF 0 0 0) 0 0 255] =
      [-32768, 99, -3200, 32767, 0] := by decide

theorem test_VC20_no_draw :
    takesDraw (voice 0xFFFF 0 0 0) 0 = false ∧ takesDraw (voice 0xFFFF 0 1 0) 0 = true := by decide

theorem test_VC21_time_wraps : (voiceAfter Config.reference (voice 0 65535 1 0) 0 0 0).time = 0 := by decide

theorem test_RV1_to_RV6_frequency :
    [frequencyRamped 15990 100, frequencyRamped 16000 100, frequencyRamped 50 (-100),
      frequencyRamped 0xFFFF 1, frequencyRamped 0xFFFF (-1), frequencyRamped 20000 1] =
      [(16000, 100), (16000, 100), (0, -100), (16000, 1), (16000, -1), (16000, 1)] := by decide

theorem test_RV7_to_RV11_amplitude :
    [amplitudeRamped 250 10, amplitudeRamped 245 10, amplitudeRamped 5 (-10), amplitudeRamped 10 (-10),
      amplitudeRamped 100 (-128)] =
      [(255, 0), (255, 10), (0, 0), (0, -10), (0, 0)] := by decide

theorem test_RV12_to_RV15_condition :
    [(3, 4), (3, 6), (3, 0), (0, 7)].map (fun (p : Half × Half) =>
      rampDue { Voice.reset with stepInterval := p.1, time := p.2 }) = [false, true, true, false] := by decide

/-! ### TICK (95_test_vectors.md §2.7) and the step -/

theorem test_M1_to_M3_saturates_once :
    [sampleOf (frozen [30000, 10000, 0]), sampleOf (frozen [-30000, -10000, 0]),
      sampleOf (frozen [30000, 30000, -30000])] =
      [some (.sample 32767), some (.sample (BitVec.ofInt 16 (-32768))), some (.sample 30000)] := by decide

theorem test_M4_muted : sampleOf { frozen [100, 200, 300] with mutedMask := 2 } = some (.sample 400) := by
  decide

/-- 70_reset_and_hazards.md R220: nothing offered while rst is asserted is accepted, and rst answers nothing. -/
theorem test_rst :
    after busy (step { busy with host := [.rst [.apply 0x10000009, .tick]] }) = two := by decide +kernel

theorem test_withFetchWord_runs_the_word :
    (after State.reset (step (State.reset.withFetchWord 32 0x410003E8))).voice 1 = voice 1000 0 0 0 := by
  decide

theorem test_withFetchWord_runs_tick :
    (after State.reset (step (State.reset.withFetchWord 0 0))).responses = [.sample 0] := by decide

/-- 43_voice_compute.md R168's example: a disabled channel 1 at 77 adds 77 to channel 0 (70_reset R227). -/
theorem test_frozen_modulator :
    ((ticked { frozen [0, 77] with
        voices := [{ dc 10 0 with amEn := true, amSrc := 1 }, { Voice.reset with lastSample := 77 }],
        enabledMask := 1 }).voice 0).lastSample = 87 := by decide

/-- Program P3's order: channel 0 reads channel 1's previous sample, channel 1 channel 0's new one
(20_memory.md R69). -/
theorem test_modulation_order :
    (ticked { frozen [0, 0] with
        voices := [{ dc 10 0 with amEn := true, amSrc := 1 }, { dc 100 0 with amEn := true, amSrc := 0 }],
        enabledMask := 3 }).voices.map Voice.lastSample = [10, 110] := by decide

/-! ### Witnesses: the hypotheses of each obligation that has any, met together, clause by clause. The
obligations named in no witness have no hypotheses: `SpecExampleWordsDecode`, `EveryOperationAnswersOnce`'s
completions, `SineLawsHoldForEveryTable`'s periodicity, `VoiceStepWritesItsVoiceOnly`'s frame and
`CountdownLastsExactlyItsCount`. -/

theorem witness_DecodeOfEncodeIsIdentity :
    ∀ i ∈ [Instr.endEvt, .time 0xFFFF, .setFrequency 15 0xFFFF, .unrecognised 12, .unrecognised 15],
      i.wellFormed = true ∧ (encode i).isSome = true := by decide

/-- Words at the ends of each range of KIND, for the two tables of `decodeWord` and `encode`. -/
theorem witness_EncodeOfDecodeClearsIgnoredFields :
    [0x0FFFFFFF, 0x1FFFFFFF, 0x3FFFFFFF, 0x4FFFFFFF, 0xBFFFFFFF, 0xCFFFFFFF, 0xFFFFFFFF].map kind =
      [0, 1, 3, 4, 11, 12, 15] := by decide

theorem witness_KindTableDecodesEveryWord :
    ((List.range 16).map fun k => kind (BitVec.ofNat 32 (k * 2 ^ 28 + 0x0A5AFFFF))) = List.range 16 := by
  decide

theorem witness_ReservedBitsAreIgnored :
    (∀ i, i < 32 → i < 16 ∨ 24 ≤ i →
      (0x70FF0005 : Word).getLsbD i = (0x70000005 : Word).getLsbD i) ∧
    encode (.setAmplitude 0 5) = some 0x70000005 := by decide

theorem witness_GlobalEventsIgnoreChannelField :
    ∀ k ∈ [0, 3, 12, 15], (kind (BitVec.ofNat 32 (k * 2 ^ 28)) ≤ 3 ∨ 12 ≤ kind (BitVec.ofNat 32 (k * 2 ^ 28))) ∧
      ∀ i, i < 32 → i < 24 ∨ 28 ≤ i →
        (BitVec.ofNat 32 (k * 2 ^ 28)).getLsbD i = (BitVec.ofNat 32 (k * 2 ^ 28 + 0x0F000000)).getLsbD i := by
  decide

theorem witness_TransportBytesDecodeLittleEndian :
    ([] : List Byte).length < 4 ∧ [(1 : Byte), 2, 3].length < 4 ∧
    (0x410003E8 : Word).toNat =
      (0xE8 : Byte).toNat + 2 ^ 8 * (0x03 : Byte).toNat + 2 ^ 16 * (0 : Byte).toNat +
        2 ^ 24 * (0x41 : Byte).toNat := by decide

theorem witness_StepRunsTheDecodedOperation :
    (∃ s : State, s.host = [.apply 0x410003E8] ∧ decodeWord 0x410003E8 = .setFrequency 1 1000) ∧
    (∃ s : State, s.host = [.tick]) ∧ ∃ s : State, s.host = [] :=
  ⟨⟨{ two with host := [.apply 0x410003E8] }, rfl, by decide⟩, ⟨{ two with host := [.tick] }, rfl⟩, two, rfl⟩

theorem witness_SimultaneousOperationsAreSerialised :
    ({ two with host := [.together 0x10000002] } : State).host = .together 0x10000002 :: [] := rfl

theorem witness_ResetValuesOfEveryField :
    (∃ t, construct 1 Config.reference = .next t) ∧ (∃ t, construct 16 Config.reference = .next t) ∧
    ({ busy with host := [.rst [.tick]] } : State).host = .rst [.tick] :: [] ∧ ∃ t, exec .endEvt busy = .next t :=
  ⟨⟨_, if_pos test_reference_is_valid.1⟩, ⟨_, if_pos test_reference_is_valid.2⟩, rfl, _, rfl⟩

theorem witness_ResetSequencesAreIdempotent :
    [HostOp.rst [], .apply 0x0FFFFFFF] ≠ [] ∧
    ∀ op ∈ [HostOp.rst [], .apply 0x0FFFFFFF], (∃ offered, op = .rst offered) ∨ ∃ w : Word, op = .apply w ∧ kind w = 0 :=
  ⟨by decide, fun op h => by
    rcases List.mem_cons.1 h with h | h
    · exact .inl ⟨_, h⟩
    · exact .inr ⟨0x0FFFFFFF, List.mem_singleton.1 h, by decide⟩⟩

/-- N at 1 and 16, SAMPLE_RATE at 1 and 2^32 - 1, and one step beyond each bound. -/
theorem witness_ConstructionChecksTheConfiguration :
    (∀ n ∈ [1, 16], ∀ r ∈ [1, 4294967295], 1 ≤ n ∧ n ≤ 16 ∧ 1 ≤ r ∧ r ≤ 4294967295) ∧
    (Config.reference.sineLut.length = 360 ∧ ∀ m ∈ Config.reference.sineLut, m ≤ 254) ∧
    (∀ n ∈ [0, 17], ¬ (1 ≤ n ∧ n ≤ 16)) ∧ ∀ r ∈ [0, 4294967296], ¬ (1 ≤ r ∧ r ≤ 4294967295) := by
  decide +kernel

theorem witness_StepKeepsWellFormedState :
    ∃ s t : State, s.wf = true ∧ step s = .next t ∧ 1 < t.channels ∧ (t.voice 1).amEn = true :=
  ⟨{ two with host := [.apply 0x91000001] }, _, by decide +kernel, rfl, by decide, by decide⟩

theorem witness_ResetStateIsWellFormed : ∃ t, construct 16 Config.reference = .next t :=
  ⟨_, if_pos test_reference_is_valid.2⟩

theorem witness_ConfigurationNeverChanges : ∃ t, step { two with host := [.apply 0] } = .next t := ⟨_, rfl⟩

theorem witness_EveryOperationAnswersOnce : Instr.tick = .tick ∧ Instr.endEvt ≠ .tick := by decide

theorem witness_ApplyFollowsTheListing :
    ({ two with host := [.apply 0xA0000020] } : State).host = .apply 0xA0000020 :: [] := rfl

theorem witness_GatedEventsAreBusyWhileRunning :
    2 ≤ kind 0x20000001 ∧ 2 ≤ kind 0xF0000000 ∧ busy.remaining ≠ 0 ∧ gatedOp (.enable 1) ∧
    gatedOp (.unrecognised 15) := by
  refine ⟨by decide, by decide, by decide, trivial, trivial⟩

theorem witness_UnrecognisedKindIsInvalidEvent :
    two.remaining = 0 ∧ 12 ≤ kind 0xC0000000 ∧ 12 ≤ kind 0xF0000000 := by decide

/-- KIND 4 and 11, CHAN at N and at 15. -/
theorem witness_ChannelAtOrAboveCountIsRejected :
    two.remaining = 0 ∧ [0x42000000, 0x4F000000, 0xB2000000, 0xBF000000].map kind = [4, 4, 11, 11] ∧
    [0x42000000, 0x4F000000, 0xB2000000, 0xBF000000].map chan = [two.channels, 15, two.channels, 15] := by
  decide

theorem witness_RejectionChangesNothing :
    ∃ t, exec (.amplitudeScale 0 32) two = .next t ∧
      t.responses = two.responses ++ [.status .outOfRange] ∧ Status.outOfRange ≠ .ok :=
  ⟨_, rfl, by decide, by decide⟩

theorem witness_ApplyIsIdempotent :
    ∃ t, Instr.setFrequency 0 1000 ≠ .tick ∧ exec (.setFrequency 0 1000) two = .next t :=
  ⟨_, by decide, rfl⟩

theorem witness_EventsLeaveSamplesAndTimeAlone :
    ∃ t, Instr.stepInterval 0 4 ≠ .tick ∧ exec (.stepInterval 0 4) two = .next t ∧
      Instr.stepInterval 0 4 ≠ .endEvt ∧ ∀ ch v, Instr.stepInterval 0 4 ≠ .setFrequency ch v :=
  ⟨_, by decide, rfl, by decide, fun _ _ => Instr.noConfusion⟩

theorem witness_PerVoiceEventWritesOneVoice :
    ∃ t, chanOf (.setAmplitude 1 255) = some 1 ∧ exec (.setAmplitude 1 255) two = .next t :=
  ⟨_, rfl, rfl⟩

theorem witness_EndResetsTheEngine : (∃ t, exec .endEvt busy = .next t) ∧ kind 0x0F5AFFFF = 0 :=
  ⟨⟨_, rfl⟩, by decide⟩

theorem witness_TimeReplacesTheCountdown :
    (∃ t, exec (.time 9) busy = .next t) ∧ (∃ t, exec (.time 0) busy = .next t) ∧ kind 0x1FFFFFFF = 1 :=
  ⟨⟨_, rfl⟩, ⟨_, rfl⟩, by decide⟩

theorem witness_EnableAndMuteReplaceTheirMask : two.remaining = 0 := by decide

/-- Countdowns 0, 1 and 2, and a gated event in Idle and in Running. -/
theorem witness_EngineStateMachine :
    two.remaining = 0 ∧ ({ two with remaining := 1 } : State).remaining = 1 ∧
    (({ two with remaining := 2 } : State).remaining.toNat = 2 ∧ 1 < 2) ∧ gatedOp (.mute 1) ∧
    busy.remaining ≠ 0 :=
  ⟨by decide, rfl, ⟨by decide, by decide⟩, trivial, by decide⟩

/-- A per-voice event: Running, Idle with CHAN at N, Idle with CHAN at 0 and N - 1. -/
theorem witness_per_voice_events :
    busy.remaining ≠ 0 ∧ (two.remaining = 0 ∧ two.channels ≤ (2 : Nibble).toNat) ∧
    two.remaining = 0 ∧ (0 : Nibble).toNat < two.channels ∧ (1 : Nibble).toNat < two.channels := by decide

theorem witness_SetFrequencyRetriggersTheVoice : kind 0x410003E8 = 4 ∧
    (0 : Half).toNat = 0 ∧ (0xFFFF : Half).toNat = 65535 ∧
    (1 ≤ (1 : Half).toNat ∧ (0xFFFE : Half).toNat ≤ 65534) := by decide

theorem witness_FrequencyStepWritesSignedStep : kind 0x50008000 = 5 ∧ Voice.reset.frequencyStep = 0 := by
  decide

/-- VALUE at 0xFFFF, at 0xFFFE whose nibble is N or more, at a nibble of N - 1 and of N. -/
theorem witness_PhaseModSourceSelectsOrDisables : kind 0x6000FFFF = 6 ∧ (0xFFFF : Half).toNat = 0xFFFF ∧
    ((1 : Half).toNat ≠ 0xFFFF ∧ (1 : Half).toNat % 16 < two.channels) ∧
    ((2 : Half).toNat ≠ 0xFFFF ∧ two.channels ≤ (2 : Half).toNat % 16) ∧
    ((0xFFFE : Half).toNat ≠ 0xFFFF ∧ two.channels ≤ (0xFFFE : Half).toNat % 16) := by decide

theorem witness_SetAmplitudeWritesLowByte : kind 0x700001FF = 7 := by decide

theorem witness_AmplitudeStepWritesSignedByte : kind 0x80000080 = 8 ∧ Voice.reset.amplitudeStep = 0 := by decide

theorem witness_AmplitudeModSourceSelectsOrDisables : kind 0x90000001 = 9 ∧ (0xFFFF : Half).toNat = 0xFFFF ∧
    ((1 : Half).toNat ≠ 0xFFFF ∧ (1 : Half).toNat % 16 < two.channels) ∧
    ((2 : Half).toNat ≠ 0xFFFF ∧ two.channels ≤ (2 : Half).toNat % 16) := by decide

theorem witness_AmplitudeScaleChecksItsRange :
    kind 0xA000001F = 10 ∧ (31 : Half).toNat ≤ 31 ∧ 31 < (32 : Half).toNat := by decide

theorem witness_StepIntervalSetsTheRampPeriod : kind 0xB0000001 = 11 := by decide

/-- Reduced angles at both ends of the four ranges. -/
theorem witness_SineFollowsTheFoldTable :
    ((0 : Int) % 1440 < 360 ∧ (359 : Int) % 1440 < 360) ∧
    (360 ≤ (360 : Int) % 1440 ∧ (719 : Int) % 1440 < 720) ∧
    (720 ≤ (720 : Int) % 1440 ∧ (1079 : Int) % 1440 < 1080) ∧
    (1080 ≤ (1080 : Int) % 1440 ∧ 1080 ≤ (-1 : Int) % 1440) := by decide

theorem witness_SineLawsHoldForEveryTable :
    ∀ a ∈ [(0 : Int), 359], 0 ≤ a ∧ a ≤ 359 ∧ a ≤ 719 := by decide

theorem witness_SineOutputRange :
    (∀ x ∈ Config.reference.sineLut, x ≤ 254) ∧ Config.reference.valid = true ∧ 0 < 360 ∧ 359 < 360 := by
  decide +kernel

theorem witness_ZeroAmplitudeStoresZero :
    (1 < two.channels ∧ amp two (two.voice 1) = 0) ∧
    (let s := two.setVoice 0 { dc 30 0 with amEn := true, amSrc := 1 }
      let s := s.setVoice 1 { Voice.reset with lastSample := BitVec.ofInt 16 (-30) }
      0 < s.channels ∧ amp s (s.voice 0) = 0) := by decide

theorem witness_DcModeStoresTheShiftedAmplitude :
    1 < (one (dc 1 31)).channels ∧ ((one (dc 1 31)).voice 1).frequency = 0 ∧
    amp (one (dc 1 31)) ((one (dc 1 31)).voice 1) ≠ 0 := by decide

theorem witness_NoiseModeConsumesOneDraw :
    1 < (one (voice 0xFFFF 0 1 0)).channels ∧ ((one (voice 0xFFFF 0 1 0)).voice 1).frequency = 0xFFFF ∧
    amp (one (voice 0xFFFF 0 1 0)) ((one (voice 0xFFFF 0 1 0)).voice 1) ≠ 0 ∧
    ((one (voice 0xFFFE 0 1 0)).voice 1).frequency ≠ 0xFFFF ∧ amp two (two.voice 1) = 0 := by decide

/-- Tone at both ends of its range, and the two modes that do not read the phase modulator. -/
theorem witness_ToneModeStoresTheScaledSine :
    (∀ s ∈ [one (voice 1 65535 255 0), one (voice 0xFFFE 65535 255 0)],
      1 < s.channels ∧ (s.voice 1).frequency ≠ 0 ∧ (s.voice 1).frequency ≠ 0xFFFF ∧
      amp s (s.voice 1) ≠ 0) ∧
    (voice 0 0 1 0).frequency = 0 ∧ (voice 0xFFFF 0 1 0).frequency = 0xFFFF := by decide

/-- A voice whose ramp is due, and two whose ramp is not (95_test_vectors.md RV13, RV12, RV15). -/
theorem witness_RampRunsExactlyOnRampTicks :
    1 < two.channels ∧ due { Voice.reset with time := 6, stepInterval := 3 } ∧
    ¬ due { Voice.reset with time := 4, stepInterval := 3 } ∧ ¬ due Voice.reset := by
  unfold due; decide +kernel

/-- A voice of two in channel 1 is the voice it was given. -/
theorem test_one_voice (v : Voice) : (one v).voice 1 = v ∧ 1 < (one v).channels := ⟨rfl, Nat.lt_succ_self 1⟩

/-- A step of 1, of -32768 and of 0, each on a ramp tick. -/
theorem witness_FrequencyRampClamps :
    due { Voice.reset with stepInterval := 1, frequencyStep := 1 } ∧ (1 : Half) ≠ 0 ∧
    due { Voice.reset with stepInterval := 1, frequencyStep := 0x8000 } ∧ (0x8000 : Half) ≠ 0 ∧
    due { Voice.reset with stepInterval := 1 } ∧ Voice.reset.frequencyStep = 0 := by
  unfold due; decide

/-- Sums of -1, 0, 255 and 256, and a ramp tick of a voice whose step is not 0. -/
theorem witness_AmplitudeRampSaturatesOnce :
    due { dc 4 0 with stepInterval := 1, amplitudeStep := 0xFB } ∧ (0xFB : Byte) ≠ 0 ∧
    (((4 : Byte).toNat : Int) + (0xFB : Byte).toInt < 0 ∧ 0 ≤ ((5 : Byte).toNat : Int) + (0xFB : Byte).toInt) ∧
    (((250 : Byte).toNat : Int) + (5 : Byte).toInt ≤ 255 ∧ 255 < ((250 : Byte).toNat : Int) + (6 : Byte).toInt) ∧
    (two.voice 1).amplitudeStep = 0 := by
  unfold due; decide

theorem witness_VoiceStepWritesItsVoiceOnly : (1 : Nat) ≠ 0 := by decide

theorem witness_DatapathStaysWithinItsWidths :
    Config.reference.valid = true ∧ (∀ r ∈ [(-256 : Int), 255], -256 ≤ r ∧ r ≤ 255) ∧
    (voice 0xFFFE 65535 255 0).frequency ≠ 0xFFFF := by decide +kernel

/-- 70_reset_and_hazards.md R228's own example, f = 1000 at 32000, at the tick of the wrap. -/
theorem witness_TimeWrapIsSeamlessForExactFrequencies :
    1 ≤ Config.reference.sampleRate ∧
    Config.reference.sampleRate ∣ (voice 1000 0 255 0).frequency.toNat * 65536 ∧
    (voice 1000 0 255 0).time = BitVec.ofNat 16 65536 := by decide

theorem witness_IdleTickIsSilent : two.remaining = 0 := by decide

theorem witness_RunningTickCompletes :
    busy.remaining ≠ 0 ∧ ({ busy with enabledMask := 1 } : State).enabledMask.getLsbD 1 = false := by decide

theorem witness_ModulationReadsFollowChannelOrder :
    ∃ s t : State, s.remaining ≠ 0 ∧ exec .tick s = .next t ∧ s.enabledMask.getLsbD 0 = false ∧
      1 < s.channels ∧ s.enabledMask.getLsbD 1 = true :=
  ⟨{ busy with enabledMask := 2 }, _, by decide, rfl, by decide, by decide, by decide⟩

theorem witness_TickEmitsTheSaturatedMix :
    busy.remaining ≠ 0 ∧ busy.enabledMask.getLsbD 0 = false ∧ State.reset.channels ≤ 16 := by decide

theorem witness_TimeCountsComputedTicks :
    ∃ t : State, 1 < two.channels ∧ ({ busy with enabledMask := 2 } : State).enabledMask.getLsbD 1 = true ∧
      1 ≤ busy.remaining.toNat ∧ runSteps 1 (ticking { busy with enabledMask := 2 } 1) = .next t :=
  ⟨_, by decide, by decide, by decide, rfl⟩

theorem witness_DisabledVoiceStaysFrozen :
    ∃ t : State, busy.enabledMask.getLsbD 1 = false ∧ runSteps 1 (ticking busy 1) = .next t :=
  ⟨_, by decide, rfl⟩

theorem witness_MutedMaskDoesNotReachTheVoices :
    ∃ t t' : State, exec .tick busy = .next t ∧ exec .tick { busy with mutedMask := 3 } = .next t' :=
  ⟨_, _, rfl, rfl⟩

theorem witness_MaskBitsBeyondCountAreInert :
    ∃ t : State, (∀ c, c < busy.channels → (0xFFFC : Half).getLsbD c = busy.enabledMask.getLsbD c ∧
      (0xFFFC : Half).getLsbD c = busy.mutedMask.getLsbD c) ∧ exec .tick busy = .next t :=
  ⟨_, by decide, rfl⟩

/-- Channel 15 and 16, and each kind's numbers at their bounds and one beyond. -/
theorem witness_PerVoiceLinesAssemble :
    (15 ≤ 15 ∧ 15 < 16) ∧ (pvAccepts .frequencyStep (-32768) ∧ pvAccepts .frequencyStep 32767) ∧
    (pvAccepts .amplitudeStep (-128) ∧ pvAccepts .amplitudeStep 127) ∧
    (pvAccepts .setFrequency 0 ∧ pvAccepts .amplitudeScale 65535) ∧
    ¬ pvAccepts .frequencyStep 32768 ∧ ¬ pvAccepts .amplitudeStep (-129) ∧ ¬ pvAccepts .stepInterval (-1) ∧
    ¬ pvAccepts .setAmplitude 65536 ∧
    [SourceOperand.ch 15, .ch 16, .off, .num 0, .num 65535, .num 65536, .num (-1)].map sourceValue =
      [some 15, none, some 65535, some 0, some 65535, none, none] := by
  simp [pvAccepts, sourceValue]

theorem witness_PseudoOperationsExpand : 1 ≤ 1 ∧ assemble (.run 1) = some [.apply 0x10000001, .tick] := by
  decide

end Sys2Proof.Tests
end

section
/-! PROOFS. 20_memory.md R69: what a Running TICK reads, from the state its loop has reached at each channel. -/

namespace Sys2Proof.Proofs.Memory

open Sys2Proof Sys2Proof.Machine

/-- A TICK that completes in a running block is the loop over every channel, one decrement and one sample. -/
theorem eq_of_exec_tick_running {s t : State} (hrun : s.remaining ≠ 0) (h : exec .tick s = .next t) :
    t = State.answer { (tickLoop s.channels s).1 with
          remaining := (tickLoop s.channels s).1.remaining - 1 }
        (.sample (BitVec.ofInt 16 (sat16 (tickLoop s.channels s).2))) := by
  rcases execTick_cases s with ⟨hidle, _⟩ | ⟨_, hloop⟩
  · exact absurd hidle hrun
  · exact Host.Outcome.next.inj (h.symm.trans hloop)

/-- The decrement and the response leave the voices as the loop gives them. -/
theorem voice_of_exec_tick_running {s t : State} (hrun : s.remaining ≠ 0) (h : exec .tick s = .next t)
    (c : Nat) : t.voice c = (tickLoop s.channels s).1.voice c := by
  rw [eq_of_exec_tick_running hrun h]
  rfl

/-- A disabled voice is frozen throughout the loop (44_sample_producer.md R183). -/
theorem tickLoop_voice_disabled (n : Nat) {s : State} {j : Nat} (hj : s.enabledMask.getLsbD j = false) :
    (tickLoop n s).1.voice j = s.voice j := by
  rcases Nat.lt_or_ge j n with hlt | hge
  · calc (tickLoop n s).1.voice j
        _ = (tickLoop (j + 1) s).1.voice j := tickLoop_voice_passed s (Nat.lt_succ_self j) hlt
        _ = s.voice j := by simp [tickLoop_voice_turn, hj]
  · exact tickLoop_voice_later s hge

/-- An enabled voice leaves the loop as its own VoiceStep, on the state the loop reaches at its turn. -/
theorem tickLoop_voice_enabled {n c : Nat} {s : State} (hc : c < n) (hen : s.enabledMask.getLsbD c = true) :
    (tickLoop n s).1.voice c = (voiceStep c (tickLoop c s).1).voice c := by
  calc (tickLoop n s).1.voice c
      _ = (tickLoop (c + 1) s).1.voice c := tickLoop_voice_passed s (Nat.lt_succ_self c) hc
      _ = (voiceStep c (tickLoop c s).1).voice c := by simp [tickLoop_voice_turn, hen]

/-- At the turn of channel `c` a lower voice is as the whole loop leaves it, any other as it was before
(20_memory.md R69). -/
theorem tickLoop_voice_at_turn {n c : Nat} (s : State) (hc : c ≤ n) (j : Nat) :
    (tickLoop c s).1.voice j = if j < c then (tickLoop n s).1.voice j else s.voice j := by
  split
  next hlt => exact (tickLoop_voice_passed s hlt hc).symm
  next hge => exact tickLoop_voice_later s (Nat.le_of_not_lt hge)

/-- Settles O52: the state that channel `c` is stepped on is the one the loop reaches after the channels
below `c`. -/
theorem modulationReadsFollowChannelOrder : Obligations.ModulationReadsFollowChannelOrder := by
  intro s t hrun h
  have hvoice := voice_of_exec_tick_running hrun h
  refine ⟨fun j hj => ?frozen, fun c hc hen =>
    ⟨(tickLoop c s).1, ?stepped, ?own, ?config, ?channels, fun j => ?reads⟩⟩
  case frozen => rw [State.lastSample, hvoice, tickLoop_voice_disabled _ hj, State.lastSample]
  case stepped => rw [hvoice, tickLoop_voice_enabled hc hen]
  case own => exact tickLoop_voice_later s (Nat.le_refl c)
  case config =>
    obtain ⟨_, _, _, hconfig, _⟩ := tickLoop_rest c s
    exact hconfig
  case channels =>
    obtain ⟨_, _, _, _, _, _, _, hchannels⟩ := tickLoop_rest c s
    exact hchannels
  case reads =>
    simp only [State.lastSample, hvoice, tickLoop_voice_at_turn s hc.le j]
    split <;> rfl

end Sys2Proof.Proofs.Memory
end

section
/-! PROOFS. 30_encoding.md R82 (RSVD) and R93 (the pseudo-operations). -/

namespace Sys2Proof.Proofs.Encoding

open Sys2Proof Sys2Proof.Machine Sys2Proof.Listing Sys2Proof.Laws

/-! ### RSVD -/

/-- A field is read from its own bits alone. -/
theorem extractLsb'_congr {w w' : Word} (start len : Nat)
    (h : ∀ i, i < len → w.getLsbD (start + i) = w'.getLsbD (start + i)) :
    w.extractLsb' start len = w'.extractLsb' start len := by
  ext i hi
  simpa only [BitVec.getElem_extractLsb'] using h i hi

/-- The decoder reads KIND, CHAN and VALUE and no other bit (30_encoding.md R81 to R84). -/
theorem decodeWord_congr {w w' : Word} (hkind : kindField w = kindField w')
    (hchan : chanField w = chanField w') (hvalue : valueField w = valueField w') :
    decodeWord w = decodeWord w' := by
  simp only [decodeWord, hkind, hchan, hvalue]

/-- Words that differ in RSVD alone decode to one operation (30_encoding.md R82). -/
theorem decodeWord_eq_of_agree_outside_rsvd {w w' : Word}
    (h : ∀ i, i < 32 → i < 16 ∨ 24 ≤ i → w.getLsbD i = w'.getLsbD i) : decodeWord w = decodeWord w' :=
  decodeWord_congr
    (extractLsb'_congr 28 4 fun i _ => h (28 + i) (by omega) (by omega))
    (extractLsb'_congr 24 4 fun i _ => h (24 + i) (by omega) (by omega))
    (extractLsb'_congr 0 16 fun i _ => h (0 + i) (by omega) (by omega))

/-- A step with an APPLY presented runs the operation its word decodes to. -/
theorem step_apply (s : State) (w : Word) (rest : List HostOp) :
    step { s with host := .apply w :: rest } = exec (decodeWord w) { s with host := rest } := rfl

/-- The family `EncodedFields` holds of every operation. -/
theorem encodedFields : ∀ i : Instr, EncodedFields.Statement i
  | .endEvt => EncodedFields.endEvt
  | .time count => EncodedFields.time count
  | .enable mask => EncodedFields.enable mask
  | .mute mask => EncodedFields.mute mask
  | .setFrequency chan value => EncodedFields.setFrequency chan value
  | .frequencyStep chan value => EncodedFields.frequencyStep chan value
  | .phaseModSource chan value => EncodedFields.phaseModSource chan value
  | .setAmplitude chan value => EncodedFields.setAmplitude chan value
  | .amplitudeStep chan value => EncodedFields.amplitudeStep chan value
  | .amplitudeModSource chan value => EncodedFields.amplitudeModSource chan value
  | .amplitudeScale chan value => EncodedFields.amplitudeScale chan value
  | .stepInterval chan value => EncodedFields.stepInterval chan value
  | .unrecognised kind => EncodedFields.unrecognised kind
  | .tick => EncodedFields.tick

/-- RSVD as a number is the field's number. -/
theorem rsvd_eq_rsvdField_toNat (w : Word) : rsvd w = (rsvdField w).toNat := by
  simp [rsvd, rsvdField, Nat.shiftRight_eq_div_pow]

/-- Software writes 0 in RSVD (30_encoding.md R82). -/
theorem rsvdField_of_encode {i : Instr} {w : Word} (h : encode i = some w) : rsvdField w = 0 := by
  obtain ⟨_, hrsvd⟩ := encodedFields i
  rw [h, Option.map_some] at hrsvd
  obtain ⟨_, _, hzero⟩ := Option.map_eq_some_iff.mp hrsvd.symm
  exact hzero.symm

/-- Settles O4: the decoder, the only reader of an event word, reads no bit of RSVD. -/
theorem reservedBitsAreIgnored : Obligations.ReservedBitsAreIgnored := by
  refine ⟨fun s w w' rest hagree => ?steps, fun i w hencode => ?written⟩
  case steps => rw [step_apply, step_apply, decodeWord_eq_of_agree_outside_rsvd hagree]
  case written => rw [rsvd_eq_rsvdField_toNat, rsvdField_of_encode hencode]; rfl

/-! ### The pseudo-operations -/

/-- A per-voice line whose number is accepted is one event on its channel. -/
theorem assemble_perVoice {k : PvKind} {n : Int} {v : Half} (d : Nat) (h : asmValue k n = some v) :
    assemble (.perVoice k d n) = (asmChannel d).map fun c => [hostOpOf (pvInstr k c v)] := by
  cases hd : asmChannel d <;> simp [assemble, asmEvent, h, hd]

/-- A modulation-source line whose operand is accepted is one event on its channel. -/
theorem assemble_source {k : SourceKind} {src : SourceOperand} {v : Half} (d : Nat)
    (h : asmSource src = some v) :
    assemble (.source k d src) = (asmChannel d).map fun c => [hostOpOf (sourceInstr k c v)] := by
  cases hd : asmChannel d <;> simp [assemble, asmEvent, h, hd]

/-- `Noise` and `DC` are `SetFrequency` with the number of their mode (30_encoding.md R93). -/
theorem assemble_noise (d : Nat) : assemble (.noise d) = assemble (.perVoice .setFrequency d 0xFFFF) := by
  have hvalue : asmValue .setFrequency 0xFFFF = some 0xFFFF := by decide
  rw [assemble_perVoice d hvalue]
  exact Option.map_map ..

theorem assemble_dc (d : Nat) : assemble (.dc d) = assemble (.perVoice .setFrequency d 0) := by
  have hvalue : asmValue .setFrequency 0 = some 0 := by decide
  rw [assemble_perVoice d hvalue]
  exact Option.map_map ..

/-- `PhaseModOff` and `AmpModOff` are their source line with any operand of VALUE 0xFFFF (30_encoding.md
R93). -/
theorem assemble_phaseModOff {src : SourceOperand} (d : Nat) (h : asmSource src = some 0xFFFF) :
    assemble (.phaseModOff d) = assemble (.source .phaseModSource d src) := by
  rw [assemble_source d h]
  exact Option.map_map ..

theorem assemble_ampModOff {src : SourceOperand} (d : Nat) (h : asmSource src = some 0xFFFF) :
    assemble (.ampModOff d) = assemble (.source .amplitudeModSource d src) := by
  rw [assemble_source d h]
  exact Option.map_map ..

/-- `Run(n)` is the stream of its two lines, rejected when `Time(n)` is (30_encoding.md R93; log entry 20). -/
theorem assemble_run {n : Nat} (h : 1 ≤ n) : assemble (.run n) = assembleStream [.time n, .tick n] := by
  have hn : n ≠ 0 := Nat.ne_of_gt h
  cases hv : asmHalf n <;> simp [assemble, assembleStream, asmEvent, hn, hv]

/-- Settles O60, row by row of the table of 30_encoding.md R93; `off` and 0xFFFF are the two operands of VALUE
0xFFFF. -/
theorem pseudoOperationsExpand : Obligations.PseudoOperationsExpand := by
  have hoff : asmSource .off = some 0xFFFF := rfl
  have hnum : asmSource (.num 0xFFFF) = some 0xFFFF := by decide
  exact ⟨assemble_noise, assemble_dc,
    fun d => ⟨assemble_phaseModOff d hoff, assemble_phaseModOff d hnum⟩,
    fun d => ⟨assemble_ampModOff d hoff, assemble_ampModOff d hnum⟩,
    fun _ => assemble_run, rfl⟩

end Sys2Proof.Proofs.Encoding
end

section
/-! PROOFS. 40_event_dispatcher.md R101 to R107: APPLY's checks in their order, and the two events that no
check gates. -/

namespace Sys2Proof.Proofs.Dispatcher

open Sys2Proof Sys2Proof.Machine Sys2Proof.Listing

/-! ### The kind table over the numbers of the word -/

/-- The rows of the kind table (30_encoding.md R85, R86): word `w` stands for the operation in the row of its
KIND. -/
inductive KindRow (w : Word) : Instr → Prop
  | endEvt (hk : kind w = 0) : KindRow w .endEvt
  | time (hk : kind w = 1) : KindRow w (.time (valueField w))
  | enable (hk : kind w = 2) : KindRow w (.enable (valueField w))
  | mute (hk : kind w = 3) : KindRow w (.mute (valueField w))
  | setFrequency (hk : kind w = 4) : KindRow w (.setFrequency (chanField w) (valueField w))
  | frequencyStep (hk : kind w = 5) : KindRow w (.frequencyStep (chanField w) (valueField w))
  | phaseModSource (hk : kind w = 6) : KindRow w (.phaseModSource (chanField w) (valueField w))
  | setAmplitude (hk : kind w = 7) : KindRow w (.setAmplitude (chanField w) (valueField w))
  | amplitudeStep (hk : kind w = 8) : KindRow w (.amplitudeStep (chanField w) (valueField w))
  | amplitudeModSource (hk : kind w = 9) : KindRow w (.amplitudeModSource (chanField w) (valueField w))
  | amplitudeScale (hk : kind w = 10) : KindRow w (.amplitudeScale (chanField w) (valueField w))
  | stepInterval (hk : kind w = 11) : KindRow w (.stepInterval (chanField w) (valueField w))
  | unrecognised (hk : 12 ≤ kind w) : KindRow w (.unrecognised (kindField w))

theorem chan_eq_chanField_toNat (w : Word) : chan w = (chanField w).toNat := by
  simp [chan, chanField, Nat.shiftRight_eq_div_pow]

theorem value_eq_valueField_toNat (w : Word) : value w = (valueField w).toNat := by
  simp [value, valueField]

/-- Every word decodes by its row. -/
theorem kindRow_decodeWord (w : Word) : KindRow w (decodeWord w) := by
  have hkind : (kindField w).toNat = kind w := kindField_toNat w
  unfold decodeWord
  rw [hkind]
  split
  next hk => exact .endEvt hk
  next hk => exact .time hk
  next hk => exact .enable hk
  next hk => exact .mute hk
  next hk => exact .setFrequency hk
  next hk => exact .frequencyStep hk
  next hk => exact .phaseModSource hk
  next hk => exact .setAmplitude hk
  next hk => exact .amplitudeStep hk
  next hk => exact .amplitudeModSource hk
  next hk => exact .amplitudeScale hk
  next hk => exact .stepInterval hk
  next => exact .unrecognised (by grind)

section KindRow
variable {w : Word} {i : Instr}

theorem KindRow.eq_endEvt (hrow : KindRow w i) (h : kind w = 0) : i = .endEvt := by
  cases hrow with
  | endEvt => rfl
  | _ => omega

theorem KindRow.eq_time (hrow : KindRow w i) (h : kind w = 1) : i = .time (valueField w) := by
  cases hrow with
  | time => rfl
  | _ => omega

theorem KindRow.eq_unrecognised (hrow : KindRow w i) (h : 12 ≤ kind w) :
    i = .unrecognised (kindField w) := by
  cases hrow with
  | unrecognised => rfl
  | _ => omega

/-- The rows of KIND 2 and up are gated (40_event_dispatcher.md R102). -/
theorem KindRow.gatedOp_of_two_le (hrow : KindRow w i) (h : 2 ≤ kind w) : gatedOp i := by
  cases hrow with
  | endEvt | time => omega
  | _ => trivial

/-- The rows of KIND 4 to 11 name the voice of CHAN (41_voice_events.md R120). -/
theorem KindRow.chanOf_eq (hrow : KindRow w i) (h₁ : 4 ≤ kind w) (h₂ : kind w ≤ 11) :
    chanOf i = some (chanField w) := by
  cases hrow with
  | endEvt | time | enable | mute | unrecognised => omega
  | _ => rfl

end KindRow

/-! ### The checks an event passes through -/

theorem step_of_host_apply {s : State} {w : Word} {rest : List HostOp} (h : s.host = .apply w :: rest) :
    step s = exec (decodeWord w) { s with host := rest } := by
  have hstep := Encoding.step_apply s w rest
  rwa [← h] at hstep

/-- A gated operation is an application of the gate. -/
theorem exists_gated_of_gatedOp {i : Instr} (h : gatedOp i) :
    ∃ body : State → Result, ∀ s, exec i s = s.gated body := by
  cases i with
  | endEvt | time | tick => exact h.elim
  | _ => exact ⟨_, fun _ => rfl⟩

/-- An operation that names a voice is an application of the per-voice checks. -/
theorem exists_perVoice_of_chanOf {i : Instr} {c : Nibble} (h : chanOf i = some c) :
    ∃ body : Nat → State → Result, ∀ s, exec i s = s.perVoice c body := by
  cases i with
  | endEvt | time | enable | mute | unrecognised | tick => cases h
  | setFrequency _ v => cases h; exact ⟨_, fun s => exec_setFrequency s c v⟩
  | frequencyStep _ v => cases h; exact ⟨_, fun s => exec_frequencyStep s c v⟩
  | phaseModSource _ v => cases h; exact ⟨_, fun s => exec_phaseModSource s c v⟩
  | setAmplitude _ v => cases h; exact ⟨_, fun s => exec_setAmplitude s c v⟩
  | amplitudeStep _ v => cases h; exact ⟨_, fun s => exec_amplitudeStep s c v⟩
  | amplitudeModSource _ v => cases h; exact ⟨_, fun s => exec_amplitudeModSource s c v⟩
  | amplitudeScale _ v => cases h; exact ⟨_, fun s => exec_amplitudeScale s c v⟩
  | stepInterval _ v => cases h; exact ⟨_, fun s => exec_stepInterval s c v⟩

theorem exec_running {i : Instr} {s : State} (hi : gatedOp i) (hrun : s.remaining ≠ 0) :
    exec i s = .next (s.answer (.status .busy)) := by
  obtain ⟨body, hbody⟩ := exists_gated_of_gatedOp hi
  rw [hbody, gated_running hrun]

theorem perVoice_rejected {s : State} {c : Nibble} (hidle : s.remaining = 0) (hc : s.channels ≤ c.toNat)
    (body : Nat → State → Result) : s.perVoice c body = .next (s.answer (.status .invalidChannel)) := by
  rcases perVoice_cases s c body with ⟨hrun, _⟩ | ⟨_, _, hrejected⟩ | ⟨_, hlt, _⟩
  · exact absurd hidle hrun
  · exact hrejected
  · omega

theorem exec_unrecognised_idle {s : State} (k : Nibble) (hidle : s.remaining = 0) :
    exec (.unrecognised k) s = .next (s.answer (.status .invalidEvent)) := by
  rw [exec_unrecognised, gated_idle hidle, State.raise]

/-! ### The checks settled -/

/-- Settles O18: KIND 2 and up is gated, and the gate is the first check. -/
theorem gatedEventsAreBusyWhileRunning : Obligations.GatedEventsAreBusyWhileRunning := by
  refine ⟨fun s w rest hhost hkind hrun => ?word, fun s i hi hrun => exec_running hi hrun⟩
  case word =>
    rw [step_of_host_apply hhost]
    exact exec_running ((kindRow_decodeWord w).gatedOp_of_two_le hkind) hrun

/-- Settles O19: KIND 12 and up decodes to an unrecognised operation, whose only check is the gate. -/
theorem unrecognisedKindIsInvalidEvent : Obligations.UnrecognisedKindIsInvalidEvent := by
  refine ⟨fun s k hidle => exec_unrecognised_idle k hidle, fun s w rest hhost hkind hidle => ?word⟩
  case word =>
    rw [step_of_host_apply hhost, (kindRow_decodeWord w).eq_unrecognised hkind]
    exact exec_unrecognised_idle _ hidle

/-- Settles O20: the channel check stands before the body, which alone reads VALUE. -/
theorem channelAtOrAboveCountIsRejected : Obligations.ChannelAtOrAboveCountIsRejected := by
  refine ⟨fun s w rest hhost h₁ h₂ hidle hchan => ?rejected, fun w => Nat.mod_lt _ (by decide)⟩
  case rejected =>
    obtain ⟨body, hbody⟩ := exists_perVoice_of_chanOf ((kindRow_decodeWord w).chanOf_eq h₁ h₂)
    rw [chan_eq_chanField_toNat] at hchan
    rw [step_of_host_apply hhost, hbody]
    exact perVoice_rejected (s := { s with host := rest }) hidle hchan body

/-! ### The two events that no check gates -/

theorem exec_endEvt (s : State) : exec .endEvt s = .next (s.resetState.answer (.status .ok)) := rfl

theorem exec_time (v : Half) (s : State) :
    exec (.time v) s = .next (State.answer { s with remaining := v } (.status .ok)) := rfl

theorem eq_of_exec_endEvt {s t : State} (h : exec .endEvt s = .next t) :
    s.resetState.answer (.status .ok) = t :=
  Host.Outcome.next.inj ((exec_endEvt s).symm.trans h)

theorem eq_of_exec_time {s t : State} {v : Half} (h : exec (.time v) s = .next t) :
    State.answer { s with remaining := v } (.status .ok) = t :=
  Host.Outcome.next.inj ((exec_time v s).symm.trans h)

theorem exec_tick_idle {s : State} (hidle : s.remaining = 0) :
    exec .tick s = .next (s.answer (.sample 0)) := by
  rcases execTick_cases s with ⟨_, hsilent⟩ | ⟨hrun, _⟩
  · exact hsilent
  · exact absurd hidle hrun

/-- A block that is reset stays as it is, answered or not. -/
theorem resetState_answer_resetState (s : State) (r : Response) :
    (s.resetState.answer r).resetState = s.resetState.answer r := by
  simp [State.resetState, State.answer, State.channels]

/-- Settles O25: what End leaves is a reset and Idle block. -/
theorem endResetsTheEngine : Obligations.EndResetsTheEngine := by
  refine ⟨exec_endEvt, fun s t h => ?again, fun w => (kindRow_decodeWord w).eq_endEvt⟩
  case again =>
    obtain rfl := eq_of_exec_endEvt h
    refine ⟨?_, exec_tick_idle rfl⟩
    rw [exec_endEvt, resetState_answer_resetState]

/-- Settles O26: Running is a nonzero countdown, and Time writes the countdown whole. -/
theorem timeReplacesTheCountdown : Obligations.TimeReplacesTheCountdown := by
  refine ⟨fun s v => exec_time v s, fun s t v h => ?running, fun s t h => ?silent, fun w hk => ?word⟩
  case running =>
    obtain rfl := eq_of_exec_time h
    rw [running_iff, answer_remaining]
    bv_omega
  case silent =>
    obtain rfl := eq_of_exec_time h
    exact exec_tick_idle rfl
  case word => rw [(kindRow_decodeWord w).eq_time hk, valueField_eq]; rfl

/-! ### The listing -/

/-- The result of a listing: its state with its status answered. -/
def answered (p : State × Status) : Result := .next (p.1.answer (.status p.2))

section Listing
variable (s : State) (c : Nat) (v : Half)

/-- The gate as the listing writes it. -/
theorem gated_eq_ite (body : State → Result) :
    s.gated body = if 0 < s.remaining.toNat then answered (s, .busy) else body s := by
  by_cases h : s.remaining = 0
  · rw [gated_idle h]; simp [h]
  · have hpos : 0 < s.remaining.toNat := by bv_omega
    rw [gated_running h, if_pos hpos, answered]

/-- The checks of a per-voice event as the listing writes them. -/
theorem perVoice_eq_ite (chan : Nibble) (body : Nat → State → Result) :
    s.perVoice chan body =
      if 0 < s.remaining.toNat then answered (s, .busy)
      else if s.channels ≤ chan.toNat then answered (s, .invalidChannel)
      else body chan.toNat s :=
  gated_eq_ite s _

theorem respond_eq_answered (st : Status) : s.respond st = answered (s, st) := rfl

theorem raise_eq_answered (st : Status) : s.raise st = answered (s, st) := rfl

theorem updateVoice_eq_answered (f : Voice → Voice) : s.updateVoice c f = answered (put s c f, .ok) := rfl

/-- Only 0xFFFF disables; any other VALUE names the channel of its low four bits (30_encoding.md R87). -/
theorem operandSource_eq_ite :
    operandSource v = if v.toNat = 0xFFFF then .disabled else .channel (BitVec.ofNat 4 (v.toNat % 16)) := by
  have hdisabled : v = 0xFFFF ↔ v.toNat = 0xFFFF := BitVec.toNat_inj.symm
  have hlow : v.extractLsb' 0 4 = BitVec.ofNat 4 (v.toNat % 16) := by
    apply BitVec.eq_of_toNat_eq
    simp
  simp only [operandSource, hdisabled, hlow]

/-- The value check of a modulation-source event as the listing writes it. -/
theorem selectSource_eq_answered (f : Bool → Nibble → Voice → Voice) :
    s.selectSource c (operandSource v) f = answered (sourceListing s c v.toNat f) := by
  rw [operandSource_eq_ite, sourceListing]
  split
  case isTrue => rfl
  case isFalse =>
    have hlow : (BitVec.ofNat 4 (v.toNat % 16)).toNat = v.toNat % 16 := by simp
    simp only [State.selectSource, hlow, apply_ite answered]
    rfl

/-- A signed field holds the bits of its number (30_encoding.md R87). -/
theorem ofInt_asSigned (n u : Nat) : BitVec.ofInt n (asSigned n u) = BitVec.ofNat n u := by
  unfold asSigned
  split
  case isTrue => exact BitVec.ofInt_natCast n u
  case isFalse =>
    have hmodulus : (2 : Int) ^ n = ((2 ^ n : Nat) : Int) := by norm_cast
    apply BitVec.eq_of_toInt_eq
    rw [BitVec.toInt_ofInt, hmodulus, Int.sub_bmod_right, BitVec.toInt_ofNat']

theorem operandByte_eq_ofNat : operandByte v = BitVec.ofNat 8 (v.toNat % 256) := by
  apply BitVec.eq_of_toNat_eq
  simp [operandByte]

/-- AmplitudeScale's range check on the whole VALUE (41_voice_events.md R127). -/
theorem operandScale_eq_ite :
    operandScale v = if 31 < v.toNat then none else some (BitVec.ofNat 5 v.toNat) := by
  have hlow : v.extractLsb' 0 5 = BitVec.ofNat 5 v.toNat := by
    apply BitVec.eq_of_toNat_eq
    simp
  rw [operandScale, hlow]

end Listing

/-- The operation of a word's row, run on any state, is the listing of the word. -/
theorem KindRow.exec_eq_answered {w : Word} {i : Instr} (hrow : KindRow w i) (s : State) :
    exec i s = answered (applyListing w s) := by
  simp only [applyListing, chan_eq_chanField_toNat, value_eq_valueField_toNat, apply_ite answered]
  cases hrow with
  | endEvt hk => rw [if_pos hk]; rfl
  | time hk => simp [hk, exec_time, answered]
  | enable hk => simp [hk, exec_enable, gated_eq_ite, respond_eq_answered]
  | mute hk => simp [hk, exec_mute, gated_eq_ite, respond_eq_answered]
  | setFrequency hk => simp [hk, exec_setFrequency, perVoice_eq_ite, updateVoice_eq_answered]
  | frequencyStep hk =>
    simp [hk, exec_frequencyStep, perVoice_eq_ite, updateVoice_eq_answered, ofInt_asSigned]
  | phaseModSource hk => simp [hk, exec_phaseModSource, perVoice_eq_ite, selectSource_eq_answered]
  | setAmplitude hk =>
    simp [hk, exec_setAmplitude, perVoice_eq_ite, updateVoice_eq_answered, operandByte_eq_ofNat]
  | amplitudeStep hk =>
    simp [hk, exec_amplitudeStep, perVoice_eq_ite, updateVoice_eq_answered, operandByte_eq_ofNat,
      ofInt_asSigned]
  | amplitudeModSource hk => simp [hk, exec_amplitudeModSource, perVoice_eq_ite, selectSource_eq_answered]
  | amplitudeScale hk =>
    by_cases hrange : 31 < (valueField w).toNat
    · simp [hk, exec_amplitudeScale, perVoice_eq_ite, operandScale_eq_ite, hrange, raise_eq_answered]
    · simp [hk, exec_amplitudeScale, perVoice_eq_ite, operandScale_eq_ite, hrange, updateVoice_eq_answered]
  | stepInterval hk => simp [hk, exec_stepInterval, perVoice_eq_ite, updateVoice_eq_answered]
  | unrecognised hk =>
    have hend : kind w ≠ 0 := by omega
    have htime : kind w ≠ 1 := by omega
    simp [hk, hend, htime, exec_unrecognised, gated_eq_ite, raise_eq_answered]

/-- Settles O17, row by row of the kind table: each check of R101 is the model's check of the row's
operation. -/
theorem applyFollowsTheListing : Obligations.ApplyFollowsTheListing := by
  intro s w rest hhost
  rw [step_of_host_apply hhost]
  exact (kindRow_decodeWord w).exec_eq_answered _

end Sys2Proof.Proofs.Dispatcher
end

section
/-! PROOFS. 41_voice_events.md R122 to R128: what each per-voice event writes in voice CHAN, the rejections
all of them share, and the words that stand for them. -/

namespace Sys2Proof.Proofs.VoiceEvents

open Sys2Proof Sys2Proof.Machine Sys2Proof.Listing Sys2Proof.Proofs.Dispatcher

/-! ### The words of the per-voice kinds -/

/-- The kind table has one row for each word. -/
theorem decodeWord_of_kindRow {w : Word} {i : Instr} (hrow : KindRow w i) : decodeWord w = i := by
  have hkind : (kindField w).toNat = kind w := kindField_toNat w
  cases hrow with
  | endEvt hk | time hk | enable hk | mute hk | setFrequency hk | frequencyStep hk | phaseModSource hk
  | setAmplitude hk | amplitudeStep hk | amplitudeModSource hk | amplitudeScale hk | stepInterval hk =>
    simp only [decodeWord, hkind, hk]
  | unrecognised hk => exact (kindRow_decodeWord w).eq_unrecognised hk

/-- A word in the row of a per-voice kind, over the numbers of the word. -/
theorem decodeWord_perVoice {w : Word} {event : Nibble → Half → Instr}
    (hrow : KindRow w (event (chanField w) (valueField w))) :
    decodeWord w = event (BitVec.ofNat 4 (chan w)) (BitVec.ofNat 16 (value w)) := by
  rw [decodeWord_of_kindRow hrow, chanField_eq, valueField_eq]
  rfl

/-! ### The checks and the write -/

/-- Every event that names a voice is gated (41_voice_events.md R120). -/
theorem gatedOp_of_chanOf {i : Instr} {c : Nibble} (h : chanOf i = some c) : gatedOp i := by
  cases i with
  | endEvt | time | tick => cases h
  | _ => trivial

/-- Every event that names a voice makes the two shared rejections (41_voice_events.md R120). -/
theorem rejects_of_chanOf {i : Instr} {c : Nibble} (h : chanOf i = some c) (s : State) : rejects i c s := by
  obtain ⟨body, hbody⟩ := exists_perVoice_of_chanOf h
  refine ⟨exec_running (gatedOp_of_chanOf h), fun hidle hc => ?_⟩
  rw [hbody, perVoice_rejected hidle hc]

section Accepted
variable {s : State} {c : Nibble} {v : Half} (hidle : s.remaining = 0) (hc : c.toNat < s.channels)
include hidle hc

/-- An accepted event that checks nothing of VALUE writes voice CHAN alone. -/
theorem perVoice_updateVoice (f : Voice → Voice) :
    s.perVoice c (fun c s => s.updateVoice c f) = .next ((put s c.toNat f).answer (.status .ok)) := by
  rw [perVoice_accepted hidle hc, updateVoice_eq_answered, answered]

/-- A modulation-source event on a voice that exists does what its value check says. -/
theorem perVoice_selectSource (f : Bool → Nibble → Voice → Voice) :
    s.perVoice c (fun c s => s.selectSource c (operandSource v) f) =
      answered (sourceListing s c.toNat v.toNat f) := by
  rw [perVoice_accepted hidle hc, selectSource_eq_answered]

theorem perVoice_selectSource_disabled (f : Bool → Nibble → Voice → Voice) (hv : v.toNat = 0xFFFF) :
    s.perVoice c (fun c s => s.selectSource c (operandSource v) f) =
      .next ((put s c.toNat (f false 0)).answer (.status .ok)) := by
  rw [perVoice_selectSource hidle hc, sourceListing, if_pos hv, answered]

theorem perVoice_selectSource_channel (f : Bool → Nibble → Voice → Voice) (hv : v.toNat ≠ 0xFFFF)
    (hsrc : v.toNat % 16 < s.channels) :
    s.perVoice c (fun c s => s.selectSource c (operandSource v) f) =
      .next ((put s c.toNat (f true (BitVec.ofNat 4 (v.toNat % 16)))).answer (.status .ok)) := by
  rw [perVoice_selectSource hidle hc, sourceListing, if_neg hv, if_neg hsrc.not_ge, answered]

theorem perVoice_selectSource_rejected (f : Bool → Nibble → Voice → Voice) (hv : v.toNat ≠ 0xFFFF)
    (hsrc : s.channels ≤ v.toNat % 16) :
    s.perVoice c (fun c s => s.selectSource c (operandSource v) f) =
      .next (s.answer (.status .invalidChannel)) := by
  rw [perVoice_selectSource hidle hc, sourceListing, if_neg hv, if_pos hsrc, answered]

theorem exec_amplitudeScale_inRange (hv : v.toNat ≤ 31) :
    exec (.amplitudeScale c v) s =
      .next ((put s c.toNat fun x => { x with amplitudeScale := BitVec.ofNat 5 v.toNat }).answer
        (.status .ok)) := by
  have hscale : operandScale v = some (BitVec.ofNat 5 v.toNat) := by
    rw [operandScale_eq_ite, if_neg hv.not_gt]
  simp only [exec_amplitudeScale, hscale]
  exact perVoice_updateVoice hidle hc _

theorem exec_amplitudeScale_outOfRange (hv : 31 < v.toNat) :
    exec (.amplitudeScale c v) s = .next (s.answer (.status .outOfRange)) := by
  have hscale : operandScale v = none := by rw [operandScale_eq_ite, if_pos hv]
  simp only [exec_amplitudeScale, hscale]
  rw [perVoice_accepted hidle hc, raise_eq_answered, answered]

end Accepted

/-! ### Signed fields and the ramps -/

/-- The signed reading of a field of the listing is the model's (00_scope.md R14). -/
theorem toInt_eq_asSigned {n : Nat} (v : BitVec (n + 1)) : v.toInt = asSigned (n + 1) v.toNat := by
  have hhalf : 2 * v.toNat < 2 ^ (n + 1) ↔ v.toNat < 2 ^ n := by omega
  simp only [BitVec.toInt_eq_toNat_cond, asSigned, hhalf, Nat.add_sub_cancel, Nat.cast_pow, Nat.cast_ofNat]

/-- The signed byte of VALUE is read back whole. -/
theorem toInt_ofInt_asSigned_byte (u : Nat) :
    (BitVec.ofInt 8 (asSigned 8 (u % 256))).toInt = asSigned 8 (u % 256) := by
  rw [ofInt_asSigned, toInt_eq_asSigned, BitVec.toNat_ofNat, Nat.mod_mod]

/-- AmplitudeStep's operand is the signed byte of VALUE (30_encoding.md R87). -/
theorem operandByte_eq_ofInt (v : Half) : operandByte v = BitVec.ofInt 8 (asSigned 8 (v.toNat % 256)) := by
  rw [ofInt_asSigned, operandByte_eq_ofNat]

theorem rampFrequency_of_step_zero (cfg : Config) {x : Voice} (h : x.frequencyStep = 0) :
    rampFrequency cfg x = x := by
  rcases rampFrequency_cases cfg x with ⟨_, hsame⟩ | ⟨hne, _⟩
  · exact hsame
  · exact absurd h hne

theorem rampAmplitude_of_step_zero {x : Voice} (h : x.amplitudeStep = 0) : rampAmplitude x = x := by
  rcases rampAmplitude_cases x with ⟨_, hsame⟩ | ⟨hne, _⟩ | ⟨hne, _⟩ | ⟨hne, _⟩
  · exact hsame
  all_goals exact absurd h hne

/-- The model's ramp condition is that of 43_voice_compute.md R161. -/
theorem rampDue_iff (x : Voice) : rampDue x = true ↔ due x := by
  have hzero : x.stepInterval = 0 ↔ x.stepInterval.toNat = 0 := BitVec.toNat_inj.symm
  simp only [rampDue, due, Bool.and_eq_true, bne_iff_ne, beq_iff_eq, ne_eq, hzero]

/-! ### The events settled -/

/-- Settles O30: FrequencyStep is a plain write, and the frequency ramp tests the step it writes. -/
theorem frequencyStepWritesSignedStep : Obligations.FrequencyStepWritesSignedStep := by
  refine ⟨fun s c v => ⟨rejects_of_chanOf rfl s, fun hidle hc => ?accepted⟩, toInt_eq_asSigned,
    fun cfg x => rampFrequency_of_step_zero cfg, fun w hk => decodeWord_perVoice (.frequencyStep hk)⟩
  case accepted => rw [exec_frequencyStep, perVoice_updateVoice hidle hc]

/-- Settles O31, by the three outcomes of a modulation-source event. -/
theorem phaseModSourceSelectsOrDisables : Obligations.PhaseModSourceSelectsOrDisables := by
  refine ⟨fun s c v => ⟨rejects_of_chanOf rfl s, fun hidle hc hv => ?disabled,
    fun hidle hc hv hsrc => ?channel, fun hidle hc hv hsrc => ?rejected⟩,
    fun w hk => decodeWord_perVoice (.phaseModSource hk)⟩
  case disabled => rw [exec_phaseModSource, perVoice_selectSource_disabled hidle hc _ hv]
  case channel => rw [exec_phaseModSource, perVoice_selectSource_channel hidle hc _ hv hsrc]
  case rejected => rw [exec_phaseModSource, perVoice_selectSource_rejected hidle hc _ hv hsrc]

/-- Settles O33: AmplitudeStep is a plain write of its byte operand, which is the signed byte of VALUE. -/
theorem amplitudeStepWritesSignedByte : Obligations.AmplitudeStepWritesSignedByte := by
  refine ⟨fun s c v => ⟨rejects_of_chanOf rfl s, fun hidle hc => ?accepted⟩,
    fun v => toInt_ofInt_asSigned_byte v.toNat, fun x => rampAmplitude_of_step_zero,
    fun w hk => decodeWord_perVoice (.amplitudeStep hk)⟩
  case accepted => rw [exec_amplitudeStep, perVoice_updateVoice hidle hc, operandByte_eq_ofInt]

/-- Settles O34, by the same three outcomes as PhaseModSource. -/
theorem amplitudeModSourceSelectsOrDisables : Obligations.AmplitudeModSourceSelectsOrDisables := by
  refine ⟨fun s c v => ⟨rejects_of_chanOf rfl s, fun hidle hc hv => ?disabled,
    fun hidle hc hv hsrc => ?channel, fun hidle hc hv hsrc => ?rejected⟩,
    fun w hk => decodeWord_perVoice (.amplitudeModSource hk)⟩
  case disabled => rw [exec_amplitudeModSource, perVoice_selectSource_disabled hidle hc _ hv]
  case channel => rw [exec_amplitudeModSource, perVoice_selectSource_channel hidle hc _ hv hsrc]
  case rejected => rw [exec_amplitudeModSource, perVoice_selectSource_rejected hidle hc _ hv hsrc]

/-- Settles O35: behind the channel check the whole VALUE is compared with 31. -/
theorem amplitudeScaleChecksItsRange : Obligations.AmplitudeScaleChecksItsRange :=
  ⟨fun s _ _ => ⟨rejects_of_chanOf rfl s, exec_amplitudeScale_inRange, exec_amplitudeScale_outOfRange⟩,
    fun _ hk => decodeWord_perVoice (.amplitudeScale hk)⟩

/-- Settles O36: StepInterval is a plain write, and the ramp condition reads the period it writes. -/
theorem stepIntervalSetsTheRampPeriod : Obligations.StepIntervalSetsTheRampPeriod := by
  refine ⟨fun s c v => ⟨rejects_of_chanOf rfl s, fun hidle hc => ?accepted⟩,
    fun x v => rampDue_iff { x with stepInterval := v },
    fun w hk => decodeWord_perVoice (.stepInterval hk)⟩
  case accepted => rw [exec_stepInterval, perVoice_updateVoice hidle hc]

end Sys2Proof.Proofs.VoiceEvents
end

section
/-! PROOFS. 43_voice_compute.md R154, R155, R161 and R163: the sample a VoiceStep stores and the draw it takes,
and the registers its ramps write. -/

namespace Sys2Proof.Proofs.VoiceCompute

open Sys2Proof Sys2Proof.Machine Sys2Proof.Listing Sys2Proof.Proofs.VoiceEvents

/-! ### The datapath in the listing's arithmetic -/

/-- The model's saturation is the clip of 43_voice_compute.md R164. -/
theorem sat16_eq_clip16 (x : Int) : sat16 x = clip16 x := by
  unfold sat16 clamp clip16
  split
  next hlow => omega
  next => split <;> omega

/-- The datapath's amplitude is that of steps 1 and 2 when it is given the modulator's sample in the state
(43_voice_compute.md R152, R153). -/
theorem ampOf_eq_amp (s : State) (v : Voice) : ampOf v (s.lastSample v.amSrc.toNat) = amp s v := by
  cases hen : v.amEn <;> simp [ampOf, amp, zext, hen]

section RawSample
variable {v : Voice} {am : Int} (cfg : Config) (pm r : Int)

/-- A zero amplitude skips steps 3a to 3d (43_voice_compute.md R154). -/
theorem rawSample_of_ampOf_zero (h : ampOf v am = 0) : rawSample cfg v am pm r = 0 := if_pos h

/-- A DC voice is its amplitude, behind the shift of step 3d (43_voice_compute.md R155, R160). -/
theorem rawSample_of_dc (hdc : v.frequency = 0) (h : ampOf v am ≠ 0) :
    rawSample cfg v am pm r = asr (ampOf v am) v.amplitudeScale.toNat := by
  have hmode : modeOf v.frequency = .dc := if_pos hdc
  rw [rawSample, if_neg h, modeSample, hmode]

/-- No part of the sample reads the amplitude's step (43_voice_compute.md R163). -/
theorem rawSample_with_amplitudeStep (v : Voice) (am : Int) (b : Byte) :
    rawSample cfg { v with amplitudeStep := b } am pm r = rawSample cfg v am pm r := rfl

end RawSample

/-- A voice whose sample is 0 for want of amplitude takes no draw (43_voice_compute.md R154). -/
theorem takesDraw_of_ampOf_zero {v : Voice} {am : Int} (h : ampOf v am = 0) : takesDraw v am = false := by
  simp [takesDraw, h]

/-! ### The ramps -/

/-- Off a ramp tick neither ramp runs (43_voice_compute.md R161). -/
theorem ramp_of_not_due (cfg : Config) {v : Voice} (h : ¬ due v) : ramp cfg v = v :=
  if_neg (mt (rampDue_iff v).mp h)

/-- The frequency's ramp writes the frequency alone. -/
theorem rampFrequency_eq_with (cfg : Config) (v : Voice) :
    rampFrequency cfg v = { v with frequency := (rampFrequency cfg v).frequency } := by
  rcases rampFrequency_cases cfg v with ⟨_, hsame⟩ | ⟨_, hwrite⟩
  · rw [hsame]
  · rw [hwrite]

/-- The amplitude's ramp neither reads nor writes the frequency. -/
theorem rampAmplitude_with_frequency (v : Voice) (f : Half) :
    rampAmplitude { v with frequency := f } = { rampAmplitude v with frequency := f } := by
  simp only [rampAmplitude, apply_ite (fun x : Voice => { x with frequency := f })]

/-- On a ramp tick both ramps run, each from the registers before the tick: they write different ones
(43_voice_compute.md R161). -/
theorem ramp_of_due (cfg : Config) {v : Voice} (h : due v) :
    ramp cfg v = { rampAmplitude v with frequency := (rampFrequency cfg v).frequency } := by
  calc ramp cfg v
      _ = rampAmplitude (rampFrequency cfg v) := if_pos ((rampDue_iff v).mpr h)
      _ = rampAmplitude { v with frequency := (rampFrequency cfg v).frequency } := by
        rw [← rampFrequency_eq_with]
      _ = _ := rampAmplitude_with_frequency v _

/-- With a step of 0 the tick ramps no amplitude, due or not (43_voice_compute.md R163). -/
theorem ramp_of_amplitudeStep_zero (cfg : Config) {v : Voice} (h : v.amplitudeStep = 0) :
    (ramp cfg v).amplitude = v.amplitude ∧ (ramp cfg v).amplitudeStep = 0 := by
  by_cases hdue : due v
  · rw [ramp_of_due cfg hdue, rampAmplitude_of_step_zero h]
    exact ⟨rfl, h⟩
  · rw [ramp_of_not_due cfg hdue]
    exact ⟨rfl, h⟩

/-- The three outcomes of the amplitude's ramp by where the sum falls (43_voice_compute.md R163). -/
theorem rampAmplitude_by_sum {v : Voice} (h : v.amplitudeStep ≠ 0) {a : Int}
    (ha : a = v.amplitude.toNat + v.amplitudeStep.toInt) :
    (a < 0 → (rampAmplitude v).amplitude.toNat = 0 ∧ (rampAmplitude v).amplitudeStep = 0) ∧
    (255 < a → (rampAmplitude v).amplitude.toNat = 255 ∧ (rampAmplitude v).amplitudeStep = 0) ∧
    (0 ≤ a → a ≤ 255 →
      ((rampAmplitude v).amplitude.toNat : Int) = a ∧ (rampAmplitude v).amplitudeStep = v.amplitudeStep) := by
  have hsum : zext v.amplitude + v.amplitudeStep.toInt = a := ha.symm
  have hcases := rampAmplitude_cases v
  rw [hsum] at hcases
  rcases hcases with ⟨hzero, _⟩ | ⟨_, hbelow, hwrite⟩ | ⟨_, habove, hwrite⟩ | ⟨_, hlow, hhigh, hwrite⟩
  · exact absurd hzero h
  · rw [hwrite]
    exact ⟨fun _ => ⟨rfl, rfl⟩, by omega, by omega⟩
  · rw [hwrite]
    exact ⟨by omega, fun _ => ⟨rfl, rfl⟩, by omega⟩
  · have hread : ((BitVec.ofInt 8 a).toNat : Int) = a := by
      rw [BitVec.toNat_ofInt]
      omega
    rw [hwrite]
    exact ⟨by omega, by omega, fun _ _ => ⟨hread, rfl⟩⟩

/-! ### What a VoiceStep stores -/

section VoiceStep
variable {s : State} {c : Nat} (hc : c < s.channels)
include hc

/-- The stored sample is the datapath's, clipped (43_voice_compute.md R164). -/
theorem voiceStep_lastSample :
    ((voiceStep c s).voice c).lastSample.toInt =
      clip16 (rawSample s.config (s.voice c) (s.lastSample (s.voice c).amSrc.toNat)
        (s.lastSample (s.voice c).pmSrc.toNat) s.draw) := by
  rw [voiceStep_voice_self s hc, voiceAfter_lastSample, ← sat16_eq_clip16]
  exact sext_ofInt_sat16 _

/-- The registers of the ramps are stored as step 4 leaves them (43_voice_compute.md R161). -/
theorem voiceStep_ramped :
    ((voiceStep c s).voice c).frequency = (ramp s.config (s.voice c)).frequency ∧
    ((voiceStep c s).voice c).amplitude = (ramp s.config (s.voice c)).amplitude ∧
    ((voiceStep c s).voice c).amplitudeStep = (ramp s.config (s.voice c)).amplitudeStep := by
  rw [voiceStep_voice_self s hc]
  exact ⟨rfl, rfl, rfl⟩

/-- Step 7 counts the tick, modulo 2^16 (43_voice_compute.md R166). -/
theorem voiceStep_time :
    ((voiceStep c s).voice c).time.toNat = ((s.voice c).time.toNat + 1) % 65536 := by
  rw [voiceStep_voice_self s hc, voiceAfter_time]
  exact BitVec.toNat_add ..

end VoiceStep

/-- The draw counter advances by the draw the step takes, if it takes one (43_voice_compute.md R156). -/
theorem voiceStep_noiseDraws (c : Nat) (s : State) :
    (voiceStep c s).noiseDraws =
      s.noiseDraws + if takesDraw (s.voice c) (s.lastSample (s.voice c).amSrc.toNat) then 1 else 0 := rfl

/-! ### The statements settled -/

/-- Settles O40: with no amplitude the sample is 0 whatever the modulator and the draw, and the rest of the step
does not ask for the amplitude. -/
theorem zeroAmplitudeStoresZero : Obligations.ZeroAmplitudeStoresZero := by
  intro s c hc hzero
  rw [← ampOf_eq_amp] at hzero
  obtain ⟨hfreq, hamp, hstep⟩ := voiceStep_ramped hc
  refine ⟨?sample, ?draws, fun pm r pm' r' => ?reads, hfreq, hamp, hstep, voiceStep_time hc⟩
  case sample =>
    apply BitVec.eq_of_toInt_eq
    rw [voiceStep_lastSample hc, rawSample_of_ampOf_zero _ _ _ hzero]
    rfl
  case draws => simp [voiceStep_noiseDraws, takesDraw_of_ampOf_zero hzero]
  case reads => simp only [voiceAfter, rawSample_of_ampOf_zero _ _ _ hzero]

/-- Settles O41: the clip of the DC voice's shifted amplitude. -/
theorem dcModeStoresTheShiftedAmplitude : Obligations.DcModeStoresTheShiftedAmplitude := by
  intro s c hc hdc hamp
  rw [← ampOf_eq_amp] at hamp
  rw [voiceStep_lastSample hc, rawSample_of_dc _ _ _ hdc hamp, ampOf_eq_amp, asr]

/-- Settles O44: the model's ramp by whether the tick is a ramp tick. -/
theorem rampRunsExactlyOnRampTicks : Obligations.RampRunsExactlyOnRampTicks := by
  intro s c hc
  have hramped := voiceStep_ramped hc
  refine ⟨fun hoff => ?off, fun hdue => ?on⟩
  case off => rwa [ramp_of_not_due _ hoff] at hramped
  case on => rwa [ramp_of_due _ hdue] at hramped

/-- Settles O46: on a ramp tick by where the sum falls; a step of 0 ramps nothing; and the sample is computed
without the step. -/
theorem amplitudeRampSaturatesOnce : Obligations.AmplitudeRampSaturatesOnce := by
  refine ⟨fun s c hc hdue hstep => ?due, fun s c hc hzero => ?zero, fun cfg v b am pm r => ?sample⟩
  case due =>
    obtain ⟨_, hampStored, hstepStored⟩ := voiceStep_ramped hc
    rw [ramp_of_due _ hdue] at hampStored hstepStored
    simp only [hampStored, hstepStored]
    exact rampAmplitude_by_sum hstep rfl
  case zero =>
    obtain ⟨_, hampStored, hstepStored⟩ := voiceStep_ramped hc
    rw [hampStored, hstepStored]
    exact ramp_of_amplitudeStep_zero s.config hzero
  case sample => rw [voiceAfter_lastSample, voiceAfter_lastSample, rawSample_with_amplitudeStep]

end Sys2Proof.Proofs.VoiceCompute
end

section
/-! PROOFS. 44_sample_producer.md R181, R183, R184 and R186: the Idle TICK, the mix of a Running TICK, and the
engine state machine. -/

namespace Sys2Proof.Proofs.SampleProducer

open Sys2Proof Sys2Proof.Machine Sys2Proof.Listing
open Sys2Proof.Proofs.Memory Sys2Proof.Proofs.Dispatcher Sys2Proof.Proofs.VoiceCompute

/-! ### TICK as a whole -/

/-- A Running TICK is the loop over every channel, one decrement and one sample (44_sample_producer.md R180). -/
theorem exec_tick_running {s : State} (hrun : s.remaining ≠ 0) :
    exec .tick s =
      .next (State.answer { (tickLoop s.channels s).1 with
          remaining := (tickLoop s.channels s).1.remaining - 1 }
        (.sample (BitVec.ofInt 16 (sat16 (tickLoop s.channels s).2)))) := by
  rcases execTick_cases s with ⟨hidle, _⟩ | ⟨_, hloop⟩
  · exact absurd hidle hrun
  · exact hloop

/-- A Running TICK decrements the countdown once (44_sample_producer.md R185). -/
theorem exec_tick_decrements {s : State} (hrun : s.remaining ≠ 0) :
    ∃ t : State, exec .tick s = .next t ∧ t.remaining = s.remaining - 1 := by
  obtain ⟨_, _, hremaining, _⟩ := tickLoop_rest s.channels s
  exact ⟨_, exec_tick_running hrun, by rw [answer_remaining, hremaining]⟩

/-! ### The mix -/

/-- One turn of the loop on the sum: it is read from the state and the mask the turn leaves. -/
theorem tickChannel_sum (p : State × Int) (c : Nat) :
    (tickChannel p c).2 =
      if (tickChannel p c).1.mutedMask.getLsbD c then p.2 else p.2 + (tickChannel p c).1.lastSample c := rfl

/-- One turn of the loop adds its channel's sample, stepped or frozen, unless the channel is muted
(44_sample_producer.md R183). -/
theorem tickLoop_succ_sum (n : Nat) (s : State) :
    (tickLoop (n + 1) s).2 =
      (tickLoop n s).2 + if s.mutedMask.getLsbD n then 0 else (tickLoop (n + 1) s).1.lastSample n := by
  obtain ⟨_, hmuted, _⟩ := tickLoop_rest (n + 1) s
  rw [← hmuted, tickLoop_succ, tickChannel_sum]
  split
  next => rw [Int.add_zero]
  next => rfl

/-- The running sum after `n` channels is over their samples as the whole loop leaves them: no sample that was
added is written again (44_sample_producer.md R183, R184). -/
theorem tickLoop_sum {n m : Nat} (s : State) (hm : n ≤ m) :
    (tickLoop n s).2 =
      ((List.range n).map fun c =>
        if s.mutedMask.getLsbD c then 0 else (tickLoop m s).1.lastSample c).sum := by
  induction n with
  | zero => rfl
  | succ n ih =>
    have hpassed : (tickLoop (n + 1) s).1.lastSample n = (tickLoop m s).1.lastSample n := by
      rw [State.lastSample, State.lastSample, tickLoop_voice_passed s (Nat.lt_succ_self n) hm]
    rw [tickLoop_succ_sum, ih (Nat.le_of_succ_le hm), hpassed, List.range_succ]
    simp

/-- The sum the loop ends in is the mix of the state the TICK ends in (44_sample_producer.md R183). -/
theorem mixOf_of_exec_tick_running {s t : State} (hrun : s.remaining ≠ 0) (h : exec .tick s = .next t) :
    mixOf s t = (tickLoop s.channels s).2 := by
  rw [tickLoop_sum s le_rfl]
  simp only [mixOf, State.lastSample, voice_of_exec_tick_running hrun h]

/-- A channel's contribution to the mix is 0 or a signed 16-bit sample (10_state.md R32). -/
theorem mix_term_bounds (muted : Bool) (t : State) (c : Nat) :
    -32768 ≤ (if muted then 0 else t.lastSample c) ∧ (if muted then 0 else t.lastSample c) ≤ 32767 := by
  have hlow : -32768 ≤ t.lastSample c := BitVec.le_toInt _
  have hhigh : t.lastSample c < 32768 := BitVec.toInt_lt
  split <;> omega

/-- The exact sum over N channels lies within N times the range of a sample (44_sample_producer.md R184). -/
theorem mixOf_bounds (s t : State) :
    -32768 * (s.channels : Int) ≤ mixOf s t ∧ mixOf s t ≤ 32767 * (s.channels : Int) := by
  unfold mixOf
  induction s.channels with
  | zero => simp
  | succ n ih =>
    have hterm := mix_term_bounds (s.mutedMask.getLsbD n) t n
    rw [List.range_succ, List.map_append, List.sum_append, List.map_singleton, List.sum_singleton]
    omega

/-- With at most 16 channels the exact sum lies within -524288..524272 (44_sample_producer.md R184). -/
theorem mixOf_range {s : State} (hN : s.channels ≤ 16) (t : State) :
    -524288 ≤ mixOf s t ∧ mixOf s t ≤ 524272 := by
  have hbounds := mixOf_bounds s t
  omega

/-- Settles O53: the sum the loop keeps is the mix of the state it ends in, and the one saturation is that of
the emitted sample. -/
theorem tickEmitsTheSaturatedMix : Obligations.TickEmitsTheSaturatedMix := by
  intro s hrun
  have htick := exec_tick_running hrun
  refine ⟨_, BitVec.ofInt 16 (sat16 (tickLoop s.channels s).2), htick, ?responses, ?sample,
    fun c hc => ?frozen, fun hN => ?range⟩
  case responses =>
    obtain ⟨_, _, _, _, _, hresponses, _⟩ := tickLoop_rest s.channels s
    rw [answer_responses, hresponses]
  case sample =>
    rw [mixOf_of_exec_tick_running hrun htick, ← sat16_eq_clip16]
    exact sext_ofInt_sat16 _
  case frozen =>
    rw [State.lastSample, voice_of_exec_tick_running hrun htick, tickLoop_voice_disabled _ hc, State.lastSample]
  case range => exact mixOf_range hN _

/-! ### The Idle TICK -/

/-- The first of some TICKs presented to an Idle block is answered 0 and leaves the others to be run
(44_sample_producer.md R181). -/
theorem step_ticking_idle {s : State} (n : Nat) (hidle : s.remaining = 0) :
    step (ticking s (n + 1)) = .next (ticking (s.answer (.sample 0)) n) :=
  exec_tick_idle (s := ticking s n) hidle

/-- Settles O50, by induction on the number of TICKs over every state that the ones before it can leave. -/
theorem idleTickIsSilent : Obligations.IdleTickIsSilent := by
  refine ⟨fun s hidle => exec_tick_idle hidle, fun s n hidle => ?run⟩
  case run =>
    induction n generalizing s with
    | zero => simp [runSteps, ticking]
    | succ n ih =>
      rw [runSteps_succ n (step_ticking_idle n hidle), ih (s.answer (.sample 0)) hidle]
      simp [State.answer, List.replicate_succ]

/-! ### What a gated event leaves of the countdown -/

/-- The operation completes and does not write the countdown of `s`, the state it ran in (10_state.md R45). -/
def KeepsCountdown (s : State) (o : Result) : Prop := ∃ t : State, o = .next t ∧ t.remaining = s.remaining

section KeepsCountdown
variable (s : State)

theorem keepsCountdown_answer (r : Response) : KeepsCountdown s (.next (s.answer r)) := ⟨_, rfl, rfl⟩

theorem keepsCountdown_updateVoice (c : Nat) (f : Voice → Voice) : KeepsCountdown s (s.updateVoice c f) :=
  ⟨_, updateVoice_eq s c f, rfl⟩

theorem keepsCountdown_selectSource (c : Nat) (src : ModSource) (put : Bool → Nibble → Voice → Voice) :
    KeepsCountdown s (s.selectSource c src put) := by
  rcases selectSource_cases s c src put with ⟨_, hoff⟩ | ⟨_, _, _, hrejected⟩ | ⟨_, _, _, hon⟩
  · rw [hoff]; exact keepsCountdown_updateVoice s c _
  · rw [hrejected]; exact keepsCountdown_answer s _
  · rw [hon]; exact keepsCountdown_updateVoice s c _

variable {s}

theorem keepsCountdown_gated {body : State → Result} (h : KeepsCountdown s (body s)) :
    KeepsCountdown s (s.gated body) := by
  by_cases hidle : s.remaining = 0
  · rwa [gated_idle hidle]
  · rw [gated_running hidle]; exact keepsCountdown_answer s _

theorem keepsCountdown_perVoice {chan : Nibble} {body : Nat → State → Result}
    (h : KeepsCountdown s (body chan.toNat s)) : KeepsCountdown s (s.perVoice chan body) := by
  rcases perVoice_cases s chan body with ⟨_, hbusy⟩ | ⟨_, _, hrejected⟩ | ⟨_, _, haccepted⟩
  · rw [hbusy]; exact keepsCountdown_answer s _
  · rw [hrejected]; exact keepsCountdown_answer s _
  · rwa [haccepted]

/-- End and Time alone write the countdown in an APPLY (44_sample_producer.md R186). -/
theorem keepsCountdown_exec {i : Instr} (hi : gatedOp i) : KeepsCountdown s (exec i s) := by
  cases i with
  | endEvt | time | tick => exact hi.elim
  | enable | mute =>
    simp only [exec_enable, exec_mute]
    exact keepsCountdown_gated ⟨_, rfl, rfl⟩
  | unrecognised =>
    rw [exec_unrecognised]
    exact keepsCountdown_gated (keepsCountdown_answer s _)
  | setFrequency | frequencyStep | setAmplitude | amplitudeStep | stepInterval =>
    simp only [exec_setFrequency, exec_frequencyStep, exec_setAmplitude, exec_amplitudeStep, exec_stepInterval]
    exact keepsCountdown_perVoice (keepsCountdown_updateVoice s _ _)
  | phaseModSource | amplitudeModSource =>
    simp only [exec_phaseModSource, exec_amplitudeModSource]
    exact keepsCountdown_perVoice (keepsCountdown_selectSource s _ _ _)
  | amplitudeScale =>
    rw [exec_amplitudeScale]
    apply keepsCountdown_perVoice
    split
    next => exact keepsCountdown_answer s _
    next => exact keepsCountdown_updateVoice s _ _

end KeepsCountdown

/-! ### The engine state machine -/

/-- Every voice of a block that is reset is a reset voice (10_state.md R51). -/
theorem resetState_voice (s : State) (c : Nat) : s.resetState.voice c = Voice.reset := by
  rw [State.voice, resetState_voices, List.getD_eq_getElem?_getD, List.getElem?_replicate]
  split <;> rfl

/-- ResetState gives every field its reset value (10_state.md R51). -/
theorem allReset_resetState (s : State) : allReset s.resetState := by
  refine ⟨fun c _ => ?_, rfl, rfl, rfl⟩
  rw [resetState_voice]
  simp [Voice.reset]

/-- Settles O28, row by row: Time and End write the countdown, a Running TICK decrements it, and a gated event
keeps it. -/
theorem engineStateMachine : Obligations.EngineStateMachine := by
  refine ⟨fun s v => ⟨_, exec_time v s, rfl⟩, fun s => ⟨_, exec_endEvt s, rfl, ?reset⟩, fun s hone => ?last,
    fun s k hk hlt => ?more, fun s hidle => exec_tick_idle hidle, fun i s hi hidle => ?gated,
    fun i s hi hrun => exec_running hi hrun⟩
  case reset => exact allReset_resetState s
  case last =>
    obtain ⟨t, htick, hdec⟩ := exec_tick_decrements (s := s) (by simp [hone])
    exact ⟨t, htick, by simp [hdec, hone]⟩
  case more =>
    obtain ⟨t, htick, hdec⟩ := exec_tick_decrements (s := s) (by bv_omega)
    refine ⟨t, htick, ?_, (running_iff t).mpr ?_⟩ <;> bv_omega
  case gated =>
    obtain ⟨t, hexec, hkept⟩ := keepsCountdown_exec (s := s) hi
    exact ⟨t, hexec, hkept.trans hidle⟩

end Sys2Proof.Proofs.SampleProducer
end

section
/-! PROOFS. 60_exceptions.md R203: every APPLY either is rejected, with its status as the only change, or answers
Ok. -/

namespace Sys2Proof.Proofs.Exceptions

open Sys2Proof Sys2Proof.Machine Sys2Proof.Proofs.Dispatcher

/-- All that an APPLY in the state `s` can end in (60_exceptions.md R200, R203): a rejection, which answers in `s`
itself, or Ok, answered in a state `u` that has given no other response. -/
inductive AppliedOrRejected (s : State) : Result → Prop where
  | rejected {st : Status} (hst : st ≠ .ok) : AppliedOrRejected s (.next (s.answer (.status st)))
  | applied {u : State} (hu : u.responses = s.responses) : AppliedOrRejected s (.next (u.answer (.status .ok)))

/-! ### The shared operations -/

section AppliedOrRejected
variable (s : State)

theorem appliedOrRejected_updateVoice (c : Nat) (f : Voice → Voice) :
    AppliedOrRejected s (s.updateVoice c f) := by
  rw [updateVoice_eq]
  exact .applied (setVoice_responses s c _)

theorem appliedOrRejected_selectSource (c : Nat) (src : ModSource) (put : Bool → Nibble → Voice → Voice) :
    AppliedOrRejected s (s.selectSource c src put) := by
  rcases selectSource_cases s c src put with ⟨_, hoff⟩ | ⟨_, _, _, hrejected⟩ | ⟨_, _, _, hon⟩
  · rw [hoff]; exact appliedOrRejected_updateVoice s c _
  · rw [hrejected]; exact .rejected (by decide)
  · rw [hon]; exact appliedOrRejected_updateVoice s c _

variable {s}

theorem appliedOrRejected_gated {body : State → Result} (h : AppliedOrRejected s (body s)) :
    AppliedOrRejected s (s.gated body) := by
  by_cases hidle : s.remaining = 0
  · rwa [gated_idle hidle]
  · rw [gated_running hidle]; exact .rejected (by decide)

theorem appliedOrRejected_perVoice {chan : Nibble} {body : Nat → State → Result}
    (h : AppliedOrRejected s (body chan.toNat s)) : AppliedOrRejected s (s.perVoice chan body) := by
  rcases perVoice_cases s chan body with ⟨_, hbusy⟩ | ⟨_, _, hrejected⟩ | ⟨_, _, haccepted⟩
  · rw [hbusy]; exact .rejected (by decide)
  · rw [hrejected]; exact .rejected (by decide)
  · rwa [haccepted]

/-! ### The operations -/

theorem appliedOrRejected_exec {i : Instr} (hi : i ≠ .tick) : AppliedOrRejected s (exec i s) := by
  cases i with
  | tick => exact absurd rfl hi
  | endEvt => rw [exec_endEvt]; exact .applied (resetState_responses s)
  | time => rw [exec_time]; exact .applied rfl
  | enable | mute =>
    simp only [exec_enable, exec_mute]
    exact appliedOrRejected_gated (.applied rfl)
  | unrecognised =>
    rw [exec_unrecognised]
    exact appliedOrRejected_gated (.rejected (by decide))
  | setFrequency | frequencyStep | setAmplitude | amplitudeStep | stepInterval =>
    simp only [exec_setFrequency, exec_frequencyStep, exec_setAmplitude, exec_amplitudeStep, exec_stepInterval]
    exact appliedOrRejected_perVoice (appliedOrRejected_updateVoice s _ _)
  | phaseModSource | amplitudeModSource =>
    simp only [exec_phaseModSource, exec_amplitudeModSource]
    exact appliedOrRejected_perVoice (appliedOrRejected_selectSource s _ _ _)
  | amplitudeScale =>
    rw [exec_amplitudeScale]
    apply appliedOrRejected_perVoice
    split
    next => exact .rejected (by decide)
    next => exact appliedOrRejected_updateVoice s _ _

end AppliedOrRejected

/-- A TICK, Idle or Running, answers with a sample and nothing else (60_exceptions.md R205). -/
theorem exec_tick_answers_sample (s : State) :
    ∃ (u : State) (v : Half), exec .tick s = .next (u.answer (.sample v)) ∧ u.responses = s.responses := by
  rcases execTick_cases s with ⟨_, hsilent⟩ | ⟨_, hloop⟩
  · exact ⟨s, 0, hsilent, rfl⟩
  · obtain ⟨_, _, _, _, _, hresponses, _⟩ := tickLoop_rest s.channels s
    exact ⟨_, _, hloop, hresponses⟩

/-! ### The statement settled -/

/-- The last response tells what was answered. -/
theorem response_eq_of_answer {s u : State} {r r' : Response} (hu : u.responses = s.responses)
    (h : (u.answer r).responses = s.responses ++ [r']) : r = r' := by
  rw [answer_responses, hu] at h
  exact List.singleton_inj.mp (List.append_cancel_left h)

/-- Settles O21: a TICK answers no status, an applied event answers Ok, and a rejected one answers in the state it
found. -/
theorem rejectionChangesNothing : Obligations.RejectionChangesNothing := by
  intro i s t st hexec hresponse hst
  by_cases hi : i = .tick
  case pos =>
    obtain ⟨u, v, htick, hu⟩ := exec_tick_answers_sample s
    obtain rfl : t = u.answer (.sample v) := Host.Outcome.next.inj (hexec.symm.trans (hi ▸ htick))
    cases response_eq_of_answer hu hresponse
  case neg =>
    have houtcome := appliedOrRejected_exec (s := s) hi
    rw [hexec] at houtcome
    cases houtcome with
    | rejected => rw [response_eq_of_answer rfl hresponse]
    | applied hu =>
      cases response_eq_of_answer hu hresponse
      exact absurd rfl hst

end Sys2Proof.Proofs.Exceptions
end

section
/-! PROOFS. What an APPLY can do, once, for every event: 20_memory.md R66, 40_event_dispatcher.md R108 to R110,
41_voice_events.md R120, R121 and R124. -/

namespace Sys2Proof.Proofs.Events

open Sys2Proof Sys2Proof.Machine Sys2Proof.Listing
open Sys2Proof.Proofs.Dispatcher Sys2Proof.Proofs.VoiceEvents

/-! ### Every per-voice event as one write or one rejection -/

/-- The write of a modulation-source event in a block of `n` voices, or the status that rejects its VALUE. -/
def sourceWrite (n : Nat) (src : ModSource) (write : Bool → Nibble → Voice → Voice) :
    Except Status (Voice → Voice) :=
  match src with
  | .disabled => .ok (write false 0)
  | .channel idx => if n ≤ idx.toNat then .error .invalidChannel else .ok (write true idx)

/-- What a per-voice event writes to its voice in a block of `n` voices, or the status that rejects its VALUE; no
write for the events that name no voice. -/
def voiceWrite (n : Nat) : Instr → Except Status (Voice → Voice)
  | .setFrequency _ v => .ok fun x => { x with frequency := v, time := 0 }
  | .frequencyStep _ v => .ok fun x => { x with frequencyStep := v }
  | .phaseModSource _ v => sourceWrite n (operandSource v) fun en src x => { x with pmEn := en, pmSrc := src }
  | .setAmplitude _ v => .ok fun x => { x with amplitude := operandByte v }
  | .amplitudeStep _ v => .ok fun x => { x with amplitudeStep := operandByte v }
  | .amplitudeModSource _ v =>
    sourceWrite n (operandSource v) fun en src x => { x with amEn := en, amSrc := src }
  | .amplitudeScale _ v =>
    match operandScale v with
    | none => .error .outOfRange
    | some shift => .ok fun x => { x with amplitudeScale := shift }
  | .stepInterval _ v => .ok fun x => { x with stepInterval := v }
  | _ => .ok id

/-- A write is made and answered Ok; a rejection is answered with its status. -/
def perform (s : State) (c : Nat) : Except Status (Voice → Voice) → Result
  | .ok f => s.updateVoice c f
  | .error st => s.raise st

theorem selectSource_eq_perform (s : State) (c : Nat) (src : ModSource)
    (write : Bool → Nibble → Voice → Voice) :
    s.selectSource c src write = perform s c (sourceWrite s.channels src write) := by
  rcases selectSource_cases s c src write with
    ⟨rfl, hoff⟩ | ⟨idx, rfl, hge, hrejected⟩ | ⟨idx, rfl, hlt, hon⟩
  · exact hoff
  · rw [hrejected, sourceWrite, if_pos hge]; rfl
  · rw [hon, sourceWrite, if_neg hlt.not_ge]; rfl

/-- An event that names a voice is the shared checks and then its write (41_voice_events.md R120). -/
theorem exec_perVoice {i : Instr} {c : Nibble} (h : chanOf i = some c) (s : State) :
    exec i s = s.perVoice c fun c s => perform s c (voiceWrite s.channels i) := by
  cases i with
  | endEvt | time | enable | mute | unrecognised | tick => cases h
  | setFrequency | frequencyStep | setAmplitude | amplitudeStep | stepInterval => cases h; rfl
  | phaseModSource _ v => cases h; simp only [exec_phaseModSource, selectSource_eq_perform, voiceWrite]
  | amplitudeModSource _ v => cases h; simp only [exec_amplitudeModSource, selectSource_eq_perform, voiceWrite]
  | amplitudeScale _ v =>
    cases h
    simp only [exec_amplitudeScale, voiceWrite]
    cases operandScale v <;> rfl

/-! ### What a write keeps of its voice -/

/-- What every write of the event `i` in a block of `n` voices respects. -/
structure LawfulWrite (n : Nat) (i : Instr) (f : Voice → Voice) : Prop where
  idempotent : ∀ x, f (f x) = f x
  lastSample : ∀ x, (f x).lastSample = x.lastSample
  time : (∀ ch v, i ≠ .setFrequency ch v) → ∀ x, (f x).time = x.time
  wf : ∀ x, x.wf n = true → (f x).wf n = true

/-- A source that is written is Disabled or a channel below N (41_voice_events.md R123, R126). -/
theorem sourceWrite_ok {n : Nat} {src : ModSource} {write : Bool → Nibble → Voice → Voice}
    {f : Voice → Voice} (h : sourceWrite n src write = .ok f) :
    ∃ en idx, f = write en idx ∧ (en = true → idx.toNat < n) := by
  cases src with
  | disabled => cases h; exact ⟨_, _, rfl, nofun⟩
  | channel idx =>
    by_cases hge : n ≤ idx.toNat
    · rw [sourceWrite, if_pos hge] at h; cases h
    · rw [sourceWrite, if_neg hge] at h; cases h; exact ⟨_, _, rfl, fun _ => Nat.lt_of_not_le hge⟩

/-- A write that leaves the sources and what the events do not write alone. -/
theorem lawfulWrite_of_frame {n : Nat} {i : Instr} {f : Voice → Voice} (hidem : ∀ x, f (f x) = f x)
    (hsample : ∀ x, (f x).lastSample = x.lastSample)
    (htime : (∀ ch v, i ≠ .setFrequency ch v) → ∀ x, (f x).time = x.time)
    (hwf : ∀ x, (f x).wf n = x.wf n) : LawfulWrite n i f :=
  ⟨hidem, hsample, htime, fun x hx => (hwf x).trans hx⟩

theorem voice_wf_iff (n : Nat) (x : Voice) :
    x.wf n = true ↔ (x.pmEn = true → x.pmSrc.toNat < n) ∧ (x.amEn = true → x.amSrc.toNat < n) := by
  cases hpm : x.pmEn <;> cases ham : x.amEn <;> simp [Voice.wf, hpm, ham]

theorem lawfulWrite_of_voiceWrite {n : Nat} {i : Instr} {f : Voice → Voice} (h : voiceWrite n i = .ok f) :
    LawfulWrite n i f := by
  cases i with
  | endEvt | time | enable | mute | unrecognised | tick | frequencyStep | setAmplitude | amplitudeStep
  | stepInterval =>
    cases h
    exact lawfulWrite_of_frame (fun _ => rfl) (fun _ => rfl) (fun _ _ => rfl) fun _ => rfl
  | setFrequency ch v =>
    cases h
    exact lawfulWrite_of_frame (fun _ => rfl) (fun _ => rfl) (fun hne => absurd rfl (hne ch v)) fun _ => rfl
  | amplitudeScale _ v =>
    rw [voiceWrite] at h
    split at h
    next => cases h
    next => cases h; exact lawfulWrite_of_frame (fun _ => rfl) (fun _ => rfl) (fun _ _ => rfl) fun _ => rfl
  | phaseModSource =>
    rw [voiceWrite] at h
    obtain ⟨en, idx, rfl, hidx⟩ := sourceWrite_ok h
    refine ⟨fun _ => rfl, fun _ => rfl, fun _ _ => rfl, fun x hx => ?_⟩
    obtain ⟨_, ham⟩ := (voice_wf_iff n x).mp hx
    exact (voice_wf_iff n _).mpr ⟨hidx, ham⟩
  | amplitudeModSource =>
    rw [voiceWrite] at h
    obtain ⟨en, idx, rfl, hidx⟩ := sourceWrite_ok h
    refine ⟨fun _ => rfl, fun _ => rfl, fun _ _ => rfl, fun x hx => ?_⟩
    obtain ⟨hpm, _⟩ := (voice_wf_iff n x).mp hx
    exact (voice_wf_iff n _).mpr ⟨hpm, hidx⟩

/-! ### All that an APPLY can do -/

/-- All that an APPLY of the event `i` in the state `s` can end in, before its answer: the state it leaves and the
status it answers (40_event_dispatcher.md R101). -/
inductive Effect (i : Instr) (s : State) : State → Status → Prop
  | rejected {st : Status} (hst : st ≠ .ok) : Effect i s s st
  | ended (hi : i = .endEvt) : Effect i s s.resetState .ok
  | timed {v : Half} (hi : i = .time v) : Effect i s { s with remaining := v } .ok
  | enabled {m : Half} (hi : i = .enable m) : Effect i s { s with enabledMask := m } .ok
  | muted {m : Half} (hi : i = .mute m) : Effect i s { s with mutedMask := m } .ok
  | wrote {c : Nibble} {f : Voice → Voice} (hi : chanOf i = some c) (hc : c.toNat < s.channels)
      (hf : LawfulWrite s.channels i f) : Effect i s (s.setVoice c.toNat (f (s.voice c.toNat))) .ok

/-- The result `o` is one of the effects of `i` in `s`, answered. -/
def Applies (i : Instr) (s : State) (o : Result) : Prop :=
  ∃ u st, Effect i s u st ∧ o = .next (u.answer (.status st))

section Applies
variable {i : Instr} {s : State}

theorem applies_rejected {st : Status} (hst : st ≠ .ok) : Applies i s (.next (s.answer (.status st))) :=
  ⟨s, st, .rejected hst, rfl⟩

theorem applies_gated {body : State → Result} (h : Applies i s (body s)) : Applies i s (s.gated body) := by
  by_cases hidle : s.remaining = 0
  · rwa [gated_idle hidle]
  · rw [gated_running hidle]; exact applies_rejected (by decide)

/-- A status that rejects a VALUE is not Ok. -/
theorem voiceWrite_error {n : Nat} {st : Status} (h : voiceWrite n i = .error st) : st ≠ .ok := by
  rintro rfl
  cases i with
  | phaseModSource | amplitudeModSource =>
    simp only [voiceWrite, sourceWrite] at h
    split at h
    next => cases h
    next => split at h <;> cases h
  | amplitudeScale =>
    rw [voiceWrite] at h
    split at h <;> cases h
  | _ => cases h

theorem applies_perVoice {c : Nibble} (hi : chanOf i = some c) : Applies i s (exec i s) := by
  rw [exec_perVoice hi]
  rcases perVoice_cases s c _ with ⟨_, hbusy⟩ | ⟨_, _, hrejected⟩ | ⟨_, hc, haccepted⟩
  · rw [hbusy]; exact applies_rejected (by decide)
  · rw [hrejected]; exact applies_rejected (by decide)
  · rw [haccepted]
    cases hwrite : voiceWrite s.channels i with
    | error st => exact applies_rejected (voiceWrite_error hwrite)
    | ok f => exact ⟨_, _, .wrote hi hc (lawfulWrite_of_voiceWrite hwrite), rfl⟩

/-- Every event has one of the effects. -/
theorem applies_exec (hi : i ≠ .tick) : Applies i s (exec i s) := by
  cases i with
  | tick => exact absurd rfl hi
  | endEvt => exact ⟨_, _, .ended rfl, exec_endEvt s⟩
  | time v => exact ⟨_, _, .timed rfl, exec_time v s⟩
  | enable m => rw [exec_enable]; exact applies_gated ⟨_, _, .enabled rfl, rfl⟩
  | mute m => rw [exec_mute]; exact applies_gated ⟨_, _, .muted rfl, rfl⟩
  | unrecognised k => rw [exec_unrecognised]; exact applies_gated (applies_rejected (by decide))
  | _ => exact applies_perVoice rfl

/-- An event that has completed had one of the effects. -/
theorem effect_of_exec {t : State} (hi : i ≠ .tick) (h : exec i s = .next t) :
    ∃ u st, Effect i s u st ∧ t = u.answer (.status st) := by
  obtain ⟨u, st, heffect, hexec⟩ := applies_exec (s := s) hi
  exact ⟨u, st, heffect, Host.Outcome.next.inj (h.symm.trans hexec)⟩

end Applies

/-! ### What every effect keeps -/

/-- No event touches the configuration, N, or the model's own fields (00_scope.md R12). -/
theorem Effect.frame {i : Instr} {s u : State} {st : Status} (h : Effect i s u st) :
    u.config = s.config ∧ u.channels = s.channels ∧ u.host = s.host ∧ u.responses = s.responses ∧
    u.noiseDraws = s.noiseDraws ∧ u.arbitrations = s.arbitrations := by
  cases h with
  | ended => exact ⟨rfl, resetState_channels s, rfl, rfl, rfl, rfl⟩
  | wrote => exact ⟨rfl, setVoice_channels s _ _, rfl, rfl, rfl, rfl⟩
  | _ => exact ⟨rfl, rfl, rfl, rfl, rfl, rfl⟩

/-- A field that no write of the event touches is kept in every voice, but by End. -/
theorem Effect.voice_field {α : Type} {field : Voice → α} {i : Instr} {s u : State} {st : Status}
    (h : Effect i s u st) (hi : i ≠ .endEvt)
    (hkept : ∀ f, LawfulWrite s.channels i f → ∀ x, field (f x) = field x) (d : Nat) :
    field (u.voice d) = field (s.voice d) := by
  cases h with
  | ended hend => exact absurd hend hi
  | @wrote c f _ hc hf =>
    by_cases hd : d = c.toNat
    · rw [hd, voice_setVoice_self s _ _ hc, hkept f hf]
    · rw [voice_setVoice_ne s _ _ hd]
  | _ => rfl

/-- Settles O23: End and the writes of the per-voice events are the only effects on a voice, and no write is of
`last_sample`. -/
theorem eventsLeaveSamplesAndTimeAlone : Obligations.EventsLeaveSamplesAndTimeAlone := by
  intro i s t hi h
  obtain ⟨u, st, heffect, rfl⟩ := effect_of_exec hi h
  obtain ⟨_, _, _, _, hdraws, _⟩ := heffect.frame
  exact ⟨hdraws, fun hend => heffect.voice_field (field := Voice.lastSample) hend fun _ hf => hf.lastSample,
    fun hend hfreq => heffect.voice_field (field := Voice.time) hend fun _ hf => hf.time hfreq⟩

/-- Settles O24: an event that names a voice is rejected or writes that voice. -/
theorem perVoiceEventWritesOneVoice : Obligations.PerVoiceEventWritesOneVoice := by
  intro i c s t hi h
  obtain ⟨u, st, heffect, rfl⟩ := effect_of_exec (by rintro rfl; cases hi) h
  cases heffect with
  | rejected => exact ⟨fun _ _ => rfl, rfl, rfl, rfl, rfl⟩
  | ended hother | timed hother | enabled hother | muted hother => rw [hother] at hi; cases hi
  | wrote hchan =>
    obtain rfl : c = _ := Option.some.inj (hi.symm.trans hchan)
    exact ⟨fun d hd => voice_setVoice_ne s _ _ hd, setVoice_channels s _ _, rfl, rfl, rfl⟩

/-! ### The same event once more -/

/-- The event `i` answers a status, and run again on what it left it answers the same and changes nothing more. -/
def Repeats (i : Instr) (s : State) : Prop :=
  ∃ (t : State) (st : Status), exec i s = .next t ∧ t.responses = s.responses ++ [.status st] ∧
    exec i t = .next (t.answer (.status st))

theorem repeats_of_running {i : Instr} {s : State} (hi : gatedOp i) (hrun : s.remaining ≠ 0) :
    Repeats i s :=
  ⟨_, .busy, exec_running hi hrun, rfl, exec_running (s := s.answer _) hi hrun⟩

/-- A write of the voice that was just written, by an idempotent `f`, changes nothing. -/
theorem setVoice_setVoice_idempotent {s : State} {c : Nat} {f : Voice → Voice} (hc : c < s.channels)
    (hf : ∀ x, f (f x) = f x) (r : Response) :
    ((s.setVoice c (f (s.voice c))).answer r).setVoice c
        (f (((s.setVoice c (f (s.voice c))).answer r).voice c)) =
      (s.setVoice c (f (s.voice c))).answer r := by
  rw [answer_voice, voice_setVoice_self s c _ hc, hf]
  simp only [State.setVoice, State.answer, List.set_set]

theorem repeats_perVoice {i : Instr} {c : Nibble} {s : State} (hi : chanOf i = some c)
    (hidle : s.remaining = 0) : Repeats i s := by
  by_cases hc : s.channels ≤ c.toNat
  · obtain ⟨_, hrejects⟩ := rejects_of_chanOf hi s
    obtain ⟨_, hagain⟩ := rejects_of_chanOf hi (s.answer (.status .invalidChannel))
    exact ⟨_, _, hrejects hidle hc, rfl, hagain hidle hc⟩
  · have haccepted (t : State) (ht : t.remaining = 0) (hN : t.channels = s.channels) :
        exec i t = perform t c.toNat (voiceWrite s.channels i) := by
      rw [exec_perVoice hi, perVoice_accepted ht (by omega), hN]
    cases hwrite : voiceWrite s.channels i with
    | error st =>
      rw [hwrite] at haccepted
      exact ⟨_, st, haccepted s hidle rfl, rfl, haccepted _ hidle rfl⟩
    | ok f =>
      have hf := lawfulWrite_of_voiceWrite hwrite
      rw [hwrite] at haccepted
      have hagain := haccepted ((s.setVoice c.toNat (f (s.voice c.toNat))).answer (.status .ok)) hidle
        (setVoice_channels s _ _)
      refine ⟨_, .ok, haccepted s hidle rfl, rfl, ?_⟩
      rw [hagain, perform, updateVoice_eq, setVoice_setVoice_idempotent (by omega) hf.idempotent]

theorem exec_enable_idle {s : State} (m : Half) (hidle : s.remaining = 0) :
    exec (.enable m) s = .next (State.answer { s with enabledMask := m } (.status .ok)) := by
  rw [exec_enable, gated_idle hidle]; rfl

theorem exec_mute_idle {s : State} (m : Half) (hidle : s.remaining = 0) :
    exec (.mute m) s = .next (State.answer { s with mutedMask := m } (.status .ok)) := by
  rw [exec_mute, gated_idle hidle]; rfl

theorem repeats_gated {i : Instr} (hi : gatedOp i) (s : State) : Repeats i s := by
  by_cases hidle : s.remaining = 0
  case neg => exact repeats_of_running hi hidle
  case pos =>
    cases i with
    | endEvt | time | tick => exact hi.elim
    | enable m => exact ⟨_, _, exec_enable_idle m hidle, rfl, exec_enable_idle m hidle⟩
    | mute m => exact ⟨_, _, exec_mute_idle m hidle, rfl, exec_mute_idle m hidle⟩
    | unrecognised k => exact ⟨_, _, exec_unrecognised_idle k hidle, rfl, exec_unrecognised_idle k hidle⟩
    | _ => exact repeats_perVoice rfl hidle

theorem repeats_exec {i : Instr} (hi : i ≠ .tick) (s : State) : Repeats i s := by
  cases i with
  | tick => exact absurd rfl hi
  | endEvt =>
    refine ⟨_, _, exec_endEvt s, rfl, ?_⟩
    rw [exec_endEvt, resetState_answer_resetState]
  | time v => exact ⟨_, _, exec_time v s, rfl, exec_time v _⟩
  | _ => exact repeats_gated (by trivial) s

/-- Settles O22: the checks read only the countdown and N, which an accepted event keeps, and every write is
idempotent. -/
theorem applyIsIdempotent : Obligations.ApplyIsIdempotent := by
  intro i s t hi h
  obtain ⟨t', st, hexec, hresponse, hagain⟩ := repeats_exec hi s
  obtain rfl : t = t' := Host.Outcome.next.inj (h.symm.trans hexec)
  exact ⟨st, hresponse, hagain⟩

/-! ### The events of masks, frequency and amplitude -/

/-- Settles O27: behind the gate each of the two is one write. -/
theorem enableAndMuteReplaceTheirMask : Obligations.EnableAndMuteReplaceTheirMask :=
  fun _ v hidle => ⟨exec_enable_idle v hidle, exec_mute_idle v hidle⟩

/-- The mode table of 10_state.md R34, over the number the frequency is. -/
theorem modeOf_table (v : Half) :
    (modeOf v = .dc ↔ v.toNat = 0) ∧ (modeOf v = .noise ↔ v.toNat = 65535) ∧
    (modeOf v = .tone ↔ 1 ≤ v.toNat ∧ v.toNat ≤ 65534) := by
  rcases modeOf_cases v with ⟨hv, hmode⟩ | ⟨hv, hmode⟩ | ⟨hdc, hnoise, hmode⟩
  · rw [hmode, hv]; decide
  · rw [hmode, hv]; decide
  · have hlow : v.toNat ≠ 0 := by bv_omega
    have hhigh : v.toNat ≠ 65535 := by bv_omega
    have hrange : 1 ≤ v.toNat ∧ v.toNat ≤ 65534 := by omega
    simp [hmode, hlow, hhigh, hrange]

/-- Settles O29: SetFrequency is a plain write of two fields. -/
theorem setFrequencyRetriggersTheVoice : Obligations.SetFrequencyRetriggersTheVoice := by
  refine ⟨fun s c v => ⟨rejects_of_chanOf rfl s, fun hidle hc => ?accepted⟩, modeOf_table,
    fun w hk => decodeWord_perVoice (.setFrequency hk)⟩
  case accepted => rw [exec_setFrequency, perVoice_updateVoice hidle hc]

/-- Settles O32: SetAmplitude is a plain write of its byte operand. -/
theorem setAmplitudeWritesLowByte : Obligations.SetAmplitudeWritesLowByte := by
  refine ⟨fun s c v => ⟨rejects_of_chanOf rfl s, fun hidle hc => ?accepted⟩,
    fun w hk => decodeWord_perVoice (.setAmplitude hk)⟩
  case accepted => rw [exec_setAmplitude, perVoice_updateVoice hidle hc, operandByte_eq_ofNat]

end Sys2Proof.Proofs.Events
end

section
/-! PROOFS. 30_encoding.md R80 to R87, R92 and R94, 20_memory.md R64: the kind table read both ways, the bytes of a
word, and the lines of the assembler that name a voice. -/

namespace Sys2Proof.Proofs.EventWords

open Sys2Proof Sys2Proof.Machine Sys2Proof.Listing Sys2Proof.Laws
open Sys2Proof.Proofs.Encoding Sys2Proof.Proofs.Dispatcher Sys2Proof.Proofs.VoiceEvents

/-! ### From the operation to its word and back -/

/-- KIND as a number is the field's number. -/
theorem kind_eq_kindField_toNat (w : Word) : kind w = (kindField w).toNat := (kindField_toNat w).symm

/-- The numbers of a word put together from its fields. -/
theorem kind_eventWord (k c : Nibble) (v : Half) : kind (eventWord k c v) = k.toNat := by
  rw [kind_eq_kindField_toNat, EncodedFields.kindField_eventWord]

theorem chan_eventWord (k c : Nibble) (v : Half) : chan (eventWord k c v) = c.toNat := by
  rw [chan_eq_chanField_toNat, chanField_eventWord]

theorem rsvd_eventWord (k c : Nibble) (v : Half) : rsvd (eventWord k c v) = 0 := by
  rw [rsvd_eq_rsvdField_toNat, EncodedFields.rsvdField_eventWord]; rfl

theorem value_eventWord (k c : Nibble) (v : Half) : value (eventWord k c v) = v.toNat := by
  rw [value_eq_valueField_toNat, valueField_eventWord]

/-- Settles O1: the fields of a word put together are the fields it was put together from. -/
theorem decodeOfEncodeIsIdentity : Obligations.DecodeOfEncodeIsIdentity := by
  intro i w hwf h
  cases i with
  | tick => cases h
  | unrecognised k =>
    obtain rfl := Option.some.inj h
    have hreserved : 12 ≤ kind (eventWord k 0 0) := by
      rw [kind_eventWord]
      exact of_decide_eq_true hwf
    rw [(kindRow_decodeWord _).eq_unrecognised hreserved, EncodedFields.kindField_eventWord]
  | _ =>
    obtain rfl := Option.some.inj h
    simp [decodeWord, EncodedFields.kindField_eventWord, chanField_eventWord, valueField_eventWord]

/-- A word is its four fields in a row (30_encoding.md R80). -/
theorem word_eq_fields (w : Word) : w = kindField w ++ chanField w ++ rsvdField w ++ valueField w := by
  have hrow (start a b : Nat) :
      w.extractLsb' (start + b) a ++ w.extractLsb' start b = w.extractLsb' start (a + b) := by
    ext i hi
    simp only [BitVec.getElem_append, BitVec.getElem_extractLsb']
    split
    next => rfl
    next hge => congr 1; omega
  calc w
    _ = w.extractLsb' 0 32 := by simp
    _ = _ := by
      rw [kindField, chanField, rsvdField, valueField, ← hrow 0 16 16, ← hrow 16 8 8, ← hrow 24 4 4]

/-- A mask that is itself a word of fields masks field by field, RSVD away. -/
theorem and_eventWord (w : Word) (k c : Nibble) (v : Half) :
    w &&& eventWord k c v = eventWord (kindField w &&& k) (chanField w &&& c) (valueField w &&& v) := by
  have hrsvd : rsvdField w &&& 0 = 0 := BitVec.and_zero
  calc w &&& eventWord k c v
    _ = ((kindField w ++ chanField w ++ rsvdField w ++ valueField w : BitVec (4 + 4 + 8 + 16)) &&&
          (k ++ c ++ (0 : Byte) ++ v)) := congrArg (· &&& eventWord k c v) (word_eq_fields w)
    _ = _ := by rw [BitVec.and_append, BitVec.and_append, BitVec.and_append, eventWord, hrsvd]

/-- The row of a word encodes to the fields its kind reads, and zeros. -/
theorem encode_of_kindRow {w : Word} {i : Instr} (hrow : KindRow w i) :
    (kind w = 0 → encode i = some (eventWord 0 0 0)) ∧
    (1 ≤ kind w → kind w ≤ 3 → encode i = some (eventWord (kindField w) 0 (valueField w))) ∧
    (4 ≤ kind w → kind w ≤ 11 → encode i = some (eventWord (kindField w) (chanField w) (valueField w))) ∧
    (12 ≤ kind w → encode i = some (eventWord (kindField w) 0 0)) := by
  have hfield : kindField w = BitVec.ofNat 4 (kind w) := kindField_eq w
  cases hrow with
  | unrecognised hk =>
    exact ⟨fun h => by omega, fun _ h => by omega, fun _ h => by omega, fun _ => rfl⟩
  | endEvt hk | time hk | enable hk | mute hk | setFrequency hk | frequencyStep hk | phaseModSource hk
  | setAmplitude hk | amplitudeStep hk | amplitudeModSource hk | amplitudeScale hk | stepInterval hk =>
    rw [hfield, hk]
    simp [encode]

/-- Settles O2: each of the masks keeps the fields that the encoder writes for the kinds of its range. -/
theorem encodeOfDecodeClearsIgnoredFields : Obligations.EncodeOfDecodeClearsIgnoredFields := by
  intro w
  have hmaskGlobal : (0xF000FFFF : Word) = eventWord 15 0 0xFFFF := by decide
  have hmaskVoice : (0xFF00FFFF : Word) = eventWord 15 15 0xFFFF := by decide
  have hmaskKind : (0xF0000000 : Word) = eventWord 15 0 0 := by decide
  have hones4 (x : Nibble) : x &&& 15 = x := BitVec.and_allOnes
  have hones16 (x : Half) : x &&& 0xFFFF = x := BitVec.and_allOnes
  have hzero4 (x : Nibble) : x &&& 0 = 0 := BitVec.and_zero
  have hzero16 (x : Half) : x &&& 0 = 0 := BitVec.and_zero
  rw [hmaskGlobal, hmaskVoice, hmaskKind, and_eventWord, and_eventWord, and_eventWord, hones4, hones4, hones16,
    hzero4, hzero16]
  exact encode_of_kindRow (kindRow_decodeWord w)

/-! ### The kind table -/

/-- A word in the row of a global kind, over the number of its VALUE. -/
theorem decodeWord_global {w : Word} {event : Half → Instr} (hrow : KindRow w (event (valueField w))) :
    decodeWord w = event (BitVec.ofNat 16 (value w)) := by
  rw [decodeWord_of_kindRow hrow, valueField_eq]
  rfl

/-- Every row is an operation with a word (30_encoding.md R86, R88). -/
theorem wellFormed_of_kindRow {w : Word} {i : Instr} (hrow : KindRow w i) :
    i.wellFormed = true ∧ i ≠ .tick := by
  cases hrow with
  | unrecognised hk =>
    rw [kind_eq_kindField_toNat] at hk
    exact ⟨decide_eq_true hk, Instr.noConfusion⟩
  | _ => exact ⟨rfl, Instr.noConfusion⟩

/-- Settles O3, row by row. -/
theorem kindTableDecodesEveryWord : Obligations.KindTableDecodesEveryWord := by
  intro w
  refine ⟨fun hk => decodeWord_of_kindRow (.endEvt hk), fun hk => decodeWord_global (.time hk),
    fun hk => decodeWord_global (.enable hk), fun hk => decodeWord_global (.mute hk),
    fun hk => decodeWord_perVoice (.setFrequency hk), fun hk => decodeWord_perVoice (.frequencyStep hk),
    fun hk => decodeWord_perVoice (.phaseModSource hk), fun hk => decodeWord_perVoice (.setAmplitude hk),
    fun hk => decodeWord_perVoice (.amplitudeStep hk), fun hk => decodeWord_perVoice (.amplitudeModSource hk),
    fun hk => decodeWord_perVoice (.amplitudeScale hk), fun hk => decodeWord_perVoice (.stepInterval hk),
    fun hk => ?reserved, wellFormed_of_kindRow (kindRow_decodeWord w)⟩
  case reserved => rw [decodeWord_of_kindRow (.unrecognised hk), kindField_eq]; rfl

/-- The rows of the global kinds and of the unrecognised ones do not read CHAN (30_encoding.md R83). -/
theorem kindRow_of_same_kind_value {w w' : Word} {i : Instr} (hrow : KindRow w i)
    (hglobal : kind w ≤ 3 ∨ 12 ≤ kind w) (hkind : kindField w = kindField w')
    (hvalue : valueField w = valueField w') : KindRow w' i := by
  have hk' : kind w = kind w' := by rw [kind_eq_kindField_toNat, hkind, kind_eq_kindField_toNat]
  rw [hk'] at hglobal
  cases hrow with
  | endEvt hk => exact .endEvt (hk' ▸ hk)
  | time hk => rw [hvalue]; exact .time (hk' ▸ hk)
  | enable hk => rw [hvalue]; exact .enable (hk' ▸ hk)
  | mute hk => rw [hvalue]; exact .mute (hk' ▸ hk)
  | unrecognised hk => rw [hkind]; exact .unrecognised (hk' ▸ hk)
  | _ => omega

/-- Settles O5: the two words are in one row of the kind table. -/
theorem globalEventsIgnoreChannelField : Obligations.GlobalEventsIgnoreChannelField := by
  intro s w w' rest hglobal hagree
  have hkind : kindField w = kindField w' :=
    extractLsb'_congr 28 4 fun i _ => hagree (28 + i) (by omega) (by omega)
  have hvalue : valueField w = valueField w' :=
    extractLsb'_congr 0 16 fun i _ => hagree (0 + i) (by omega) (by omega)
  have hrow := kindRow_of_same_kind_value (kindRow_decodeWord w) hglobal hkind hvalue
  rw [step_apply, step_apply, decodeWord_of_kindRow hrow]

/-- Settles O6, on the spec's own words. -/
theorem specExampleWordsDecode : Obligations.SpecExampleWordsDecode := by
  unfold Obligations.SpecExampleWordsDecode
  decide

/-! ### The bytes of a word -/

/-- Four bytes of a transport as a number, the byte of bits 7:0 first (20_memory.md R64). -/
theorem bytes_toNat (b0 b1 b2 b3 : Byte) :
    (b3 ++ b2 ++ b1 ++ b0).toNat =
      b0.toNat + 2 ^ 8 * b1.toNat + 2 ^ 16 * b2.toNat + 2 ^ 24 * b3.toNat := by
  simp only [BitVec.toNat_append]
  rw [← Nat.shiftLeft_add_eq_or_of_lt b2.isLt, ← Nat.shiftLeft_add_eq_or_of_lt b1.isLt,
    ← Nat.shiftLeft_add_eq_or_of_lt b0.isLt]
  simp only [Nat.shiftLeft_eq]
  omega

theorem wordOfBytes_bytesOfWord (w : Word) (rest : List Byte) :
    wordOfBytes (bytesOfWord w ++ rest) = .ok (w, rest) := by
  have hword : w.extractLsb' 24 8 ++ w.extractLsb' 16 8 ++ w.extractLsb' 8 8 ++ w.extractLsb' 0 8 = w := by
    apply BitVec.eq_of_toNat_eq
    have hlt := w.isLt
    rw [bytes_toNat]
    simp only [BitVec.extractLsb'_toNat, Nat.shiftRight_eq_div_pow]
    omega
  calc wordOfBytes (bytesOfWord w ++ rest)
    _ = .ok (w.extractLsb' 24 8 ++ w.extractLsb' 16 8 ++ w.extractLsb' 8 8 ++ w.extractLsb' 0 8, rest) := rfl
    _ = .ok (w, rest) := by rw [hword]

theorem wordOfBytes_iff (b0 b1 b2 b3 : Byte) (rest : List Byte) (w : Word) :
    wordOfBytes (b0 :: b1 :: b2 :: b3 :: rest) = .ok (w, rest) ↔
      w.toNat = b0.toNat + 2 ^ 8 * b1.toNat + 2 ^ 16 * b2.toNat + 2 ^ 24 * b3.toNat := by
  rw [← bytes_toNat, BitVec.toNat_inj, wordOfBytes, Except.ok.injEq, Prod.mk.injEq, and_iff_left rfl, eq_comm]

/-- A transport that ends inside a word holds no event (log entry 12). -/
theorem wordOfBytes_short {bytes : List Byte} (h : bytes.length < 4) :
    wordOfBytes bytes = .error .truncatedWord := by
  match bytes, h with
  | [], _ | [_], _ | [_, _], _ | [_, _, _], _ => rfl

/-- Settles O7, by the number that four bytes make. -/
theorem transportBytesDecodeLittleEndian : Obligations.TransportBytesDecodeLittleEndian := by
  refine ⟨fun w rest => ?sent, wordOfBytes_iff, fun bytes hshort => ?short⟩
  case sent => rw [decodeBytes, wordOfBytes_bytesOfWord]
  case short => rw [decodeBytes, wordOfBytes_short hshort]

/-! ### The lines of the assembler that name a voice -/

theorem asmHalf_of_range {n : Int} (h : 0 ≤ n ∧ n ≤ 65535) :
    ∃ v, asmHalf n = some v ∧ (v.toNat : Int) = n := by
  refine ⟨_, if_pos h, ?_⟩
  rw [BitVec.toNat_ofInt]
  omega

/-- An accepted number of a per-voice line gives its residue modulo 2^16, or 2^8 for AmplitudeStep
(30_encoding.md R92). -/
theorem asmValue_of_accepts {k : PvKind} {n : Int} (h : pvAccepts k n) :
    ∃ v, asmValue k n = some v ∧ (v.toNat : Int) = if k = .amplitudeStep then n % 256 else n % 65536 := by
  cases k with
  | frequencyStep =>
    refine ⟨_, if_pos h, ?_⟩
    rw [BitVec.toNat_ofInt, if_neg PvKind.noConfusion]
    omega
  | amplitudeStep =>
    refine ⟨_, if_pos h, ?_⟩
    rw [BitVec.toNat_setWidth, BitVec.toNat_ofInt, if_pos rfl]
    omega
  | _ =>
    obtain ⟨v, hv, hn⟩ := asmHalf_of_range h
    obtain ⟨hlow, hhigh⟩ := h
    refine ⟨v, hv, ?_⟩
    rw [if_neg PvKind.noConfusion]
    omega

theorem asmValue_of_not_accepts {k : PvKind} {n : Int} (h : ¬ pvAccepts k n) : asmValue k n = none := by
  cases k <;> exact if_neg h

/-- The operand of a modulation-source line gives the VALUE of R92, or is rejected. -/
theorem asmSource_of_sourceValue {src : SourceOperand} {v : Int} (h : sourceValue src = some v) :
    ∃ x, asmSource src = some x ∧ (x.toNat : Int) = v := by
  cases src with
  | off => cases h; exact ⟨_, rfl, rfl⟩
  | ch d =>
    by_cases hd : d ≤ 15
    · rw [sourceValue, if_pos hd] at h
      cases h
      refine ⟨_, by rw [asmSource, asmChannel, if_pos hd]; rfl, ?_⟩
      rw [BitVec.toNat_setWidth, BitVec.toNat_ofNat]
      omega
    · rw [sourceValue, if_neg hd] at h; cases h
  | num n =>
    by_cases hn : 0 ≤ n ∧ n ≤ 65535
    · rw [sourceValue, if_pos hn] at h
      cases h
      exact asmHalf_of_range hn
    · rw [sourceValue, if_neg hn] at h; cases h

theorem asmSource_of_sourceValue_none {src : SourceOperand} (h : sourceValue src = none) :
    asmSource src = none := by
  cases src with
  | off => cases h
  | ch d =>
    have hd : ¬ d ≤ 15 := fun hd => by rw [sourceValue, if_pos hd] at h; cases h
    rw [asmSource, asmChannel, if_neg hd]; rfl
  | num n =>
    have hn : ¬ (0 ≤ n ∧ n ≤ 65535) := fun hn => by rw [sourceValue, if_pos hn] at h; cases h
    exact if_neg hn

/-- A channel number up to 15 is the CHAN of its word (30_encoding.md R92). -/
theorem asmChannel_of_le {d : Nat} (hd : d ≤ 15) : asmChannel d = some (BitVec.ofNat 4 d) := if_pos hd

theorem chan_eventWord_ofNat {d : Nat} (hd : d ≤ 15) (k : Nibble) (v : Half) :
    chan (eventWord k (BitVec.ofNat 4 d) v) = d := by
  rw [chan_eventWord, BitVec.toNat_ofNat]
  omega

theorem hostOpOf_pvInstr (k : PvKind) (c : Nibble) (v : Half) :
    hostOpOf (pvInstr k c v) = .apply (eventWord (BitVec.ofNat 4 (pvCode k)) c v) := by
  cases k <;> rfl

theorem hostOpOf_sourceInstr (k : SourceKind) (c : Nibble) (v : Half) :
    hostOpOf (sourceInstr k c v) = .apply (eventWord (BitVec.ofNat 4 (sourceCode k)) c v) := by
  cases k <;> rfl

/-- A line assembles when both its channel and its operand do (30_encoding.md R92). -/
theorem assemble_perVoice_none {k : PvKind} {d : Nat} {n : Int}
    (h : asmChannel d = none ∨ asmValue k n = none) : assemble (.perVoice k d n) = none := by
  rcases h with hchannel | hoperand
  · simp [assemble, asmEvent, hchannel]
  · cases hd : asmChannel d <;> simp [assemble, asmEvent, hoperand]

theorem assemble_source_none {k : SourceKind} {d : Nat} {src : SourceOperand}
    (h : asmChannel d = none ∨ asmSource src = none) : assemble (.source k d src) = none := by
  rcases h with hchannel | hoperand
  · simp [assemble, asmEvent, hchannel]
  · cases hd : asmChannel d <;> simp [assemble, asmEvent, hoperand]

theorem asmChannel_of_lt {d : Nat} (hd : 15 < d) : asmChannel d = none := if_neg hd.not_ge

/-- Settles O59: a line is the event word of its kind, channel and operand, or one of the three is rejected. -/
theorem perVoiceLinesAssemble : Obligations.PerVoiceLinesAssemble := by
  refine ⟨fun k d n => ⟨fun hd hn => ?voiceLine, fun h => ?voiceRejected⟩,
    fun k d src => ⟨fun v hd hv => ?sourceLine, fun h => ?sourceRejected⟩⟩
  case voiceLine =>
    obtain ⟨x, hx, hnumber⟩ := asmValue_of_accepts hn
    refine ⟨eventWord (BitVec.ofNat 4 (pvCode k)) (BitVec.ofNat 4 d) x, ?_, ?_, chan_eventWord_ofNat hd _ _,
      rsvd_eventWord .., ?_⟩
    · rw [assemble_perVoice d hx, asmChannel_of_le hd, Option.map_some, hostOpOf_pvInstr]
    · rw [kind_eventWord]; cases k <;> rfl
    · rw [value_eventWord, hnumber]
  case voiceRejected => exact assemble_perVoice_none (h.imp asmChannel_of_lt asmValue_of_not_accepts)
  case sourceLine =>
    obtain ⟨x, hx, hnumber⟩ := asmSource_of_sourceValue hv
    refine ⟨eventWord (BitVec.ofNat 4 (sourceCode k)) (BitVec.ofNat 4 d) x, ?_, ?_,
      chan_eventWord_ofNat hd _ _, rsvd_eventWord .., ?_⟩
    · rw [assemble_source d hx, asmChannel_of_le hd, Option.map_some, hostOpOf_sourceInstr]
    · rw [kind_eventWord]; cases k <;> rfl
    · rw [value_eventWord, hnumber]
  case sourceRejected => exact assemble_source_none (h.imp asmChannel_of_lt asmSource_of_sourceValue_none)

end Sys2Proof.Proofs.EventWords
end

section
/-! PROOFS. 44_sample_producer.md R180, R182, R185 and R187, 43_voice_compute.md R166 and R168, 20_memory.md R63:
what a VoiceStep, a TICK and a run of TICKs leave alone, and what they count. -/

namespace Sys2Proof.Proofs.Ticks

open Sys2Proof Sys2Proof.Machine Sys2Proof.Listing
open Sys2Proof.Proofs.Memory Sys2Proof.Proofs.Dispatcher Sys2Proof.Proofs.VoiceCompute
open Sys2Proof.Proofs.SampleProducer Sys2Proof.Proofs.EventWords

/-! ### The registers that only events write -/

/-- Two voices agree in the registers that only events write (10_state.md R35, R36, R39 to R41). -/
def SameEventRegisters (v w : Voice) : Prop :=
  v.frequencyStep = w.frequencyStep ∧ v.stepInterval = w.stepInterval ∧
  v.amplitudeScale = w.amplitudeScale ∧ v.pmEn = w.pmEn ∧ v.pmSrc = w.pmSrc ∧ v.amEn = w.amEn ∧
  v.amSrc = w.amSrc

theorem SameEventRegisters.refl (v : Voice) : SameEventRegisters v v := ⟨rfl, rfl, rfl, rfl, rfl, rfl, rfl⟩

/-- The datapath writes none of them (43_voice_compute.md R151). -/
theorem voiceAfter_eventRegisters (cfg : Config) (v : Voice) (am pm r : Int) :
    SameEventRegisters (voiceAfter cfg v am pm r) v := by
  obtain ⟨_, _, hregisters⟩ := ramp_rest cfg v
  exact hregisters

/-- A write of a voice that does not exist is none. -/
theorem setVoice_of_not_lt {s : State} {c : Nat} (hc : ¬ c < s.channels) (v : Voice) : s.setVoice c v = s := by
  rw [State.setVoice, List.set_eq_of_length_le (Nat.le_of_not_lt hc)]

theorem voiceStep_voice_of_not_lt {s : State} {c : Nat} (hc : ¬ c < s.channels) :
    (voiceStep c s).voice c = s.voice c := by
  show (s.setVoice c _).voice c = s.voice c
  rw [setVoice_of_not_lt hc]

theorem voiceStep_eventRegisters (c d : Nat) (s : State) :
    SameEventRegisters ((voiceStep c s).voice d) (s.voice d) := by
  by_cases hd : d = c
  case neg => rw [voiceStep_voice_ne s hd]; exact .refl _
  case pos =>
    subst hd
    by_cases hc : d < s.channels
    · rw [voiceStep_voice_self s hc]; exact voiceAfter_eventRegisters ..
    · rw [voiceStep_voice_of_not_lt hc]; exact .refl _

/-- Settles O47: the fields of the state but the voice file, the other voices, and of its own voice the registers
that only events write. -/
theorem voiceStepWritesItsVoiceOnly : Obligations.VoiceStepWritesItsVoiceOnly := by
  intro s c
  obtain ⟨hen, hmute, hremaining, hconfig, hhost, hresponses, harbitrations, hchannels⟩ := voiceStep_rest c s
  exact ⟨fun d hd => voiceStep_voice_ne s hd, hchannels, hen, hmute, hremaining, hconfig, hhost, hresponses,
    harbitrations, voiceStep_eventRegisters c c s⟩

/-! ### One TICK -/

theorem tickLoop_eventRegisters (n d : Nat) (s : State) :
    SameEventRegisters ((tickLoop n s).1.voice d) (s.voice d) := by
  cases hen : s.enabledMask.getLsbD d with
  | false => rw [tickLoop_voice_disabled n hen]; exact .refl _
  | true =>
    rcases Nat.lt_or_ge d n with hlt | hge
    · have hturn := voiceStep_eventRegisters d d (tickLoop d s).1
      rwa [← tickLoop_voice_enabled hlt hen, tickLoop_voice_later s le_rfl] at hturn
    · rw [tickLoop_voice_later s hge]; exact .refl _

/-- A turn of the loop takes at most one draw (43_voice_compute.md R156). -/
theorem voiceStep_noiseDraws_bounds (c : Nat) (s : State) :
    s.noiseDraws ≤ (voiceStep c s).noiseDraws ∧ (voiceStep c s).noiseDraws ≤ s.noiseDraws + 1 := by
  rw [voiceStep_noiseDraws]
  split <;> omega

theorem tickLoop_noiseDraws_bounds (n : Nat) (s : State) :
    s.noiseDraws ≤ (tickLoop n s).1.noiseDraws ∧ (tickLoop n s).1.noiseDraws ≤ s.noiseDraws + n := by
  induction n with
  | zero => exact ⟨le_rfl, le_rfl⟩
  | succ n ih =>
    rw [tickLoop_succ, tickChannel_state]
    split
    next =>
      have hturn := voiceStep_noiseDraws_bounds n (tickLoop n s).1
      omega
    next => omega

/-- What any TICK, Idle or Running, leaves alone and counts (44_sample_producer.md R181, R185). -/
theorem exec_tick_rest (s : State) :
    ∃ (t : State) (x : Half), exec .tick s = .next t ∧ t.responses = s.responses ++ [.sample x] ∧
      t.remaining.toNat = s.remaining.toNat - 1 ∧ t.enabledMask = s.enabledMask ∧
      t.mutedMask = s.mutedMask ∧ t.channels = s.channels ∧ t.config = s.config ∧ t.host = s.host ∧
      t.arbitrations = s.arbitrations := by
  by_cases hidle : s.remaining = 0
  case pos => exact ⟨_, 0, exec_tick_idle hidle, rfl, by simp [hidle], rfl, rfl, rfl, rfl, rfl, rfl⟩
  case neg =>
    obtain ⟨hen, hmute, hremaining, hconfig, hhost, hresponses, harbitrations, hchannels⟩ :=
      tickLoop_rest s.channels s
    refine ⟨_, _, exec_tick_running hidle, congrArg (· ++ _) hresponses, ?_, hen, hmute, hchannels, hconfig,
      hhost, harbitrations⟩
    rw [answer_remaining, hremaining]
    bv_omega

/-- A TICK keeps the registers that only events write, and the whole of a voice that is not enabled. -/
theorem voice_of_exec_tick {s t : State} (h : exec .tick s = .next t) (c : Nat) :
    SameEventRegisters (t.voice c) (s.voice c) ∧
    (s.enabledMask.getLsbD c = false → t.voice c = s.voice c) := by
  by_cases hidle : s.remaining = 0
  case pos =>
    obtain rfl := Host.Outcome.next.inj ((exec_tick_idle hidle).symm.trans h)
    exact ⟨.refl _, fun _ => rfl⟩
  case neg =>
    rw [voice_of_exec_tick_running hidle h]
    exact ⟨tickLoop_eventRegisters _ c s, tickLoop_voice_disabled _⟩

/-- Settles O51: the frame of any TICK, and the draws of the loop. -/
theorem runningTickCompletes : Obligations.RunningTickCompletes := by
  intro s hrun
  obtain ⟨t, x, htick, hresponses, hremaining, hen, hmute, hchannels, hconfig, hhost, harbitrations⟩ :=
    exec_tick_rest s
  have hdraws : t.noiseDraws = (tickLoop s.channels s).1.noiseDraws := by
    rw [eq_of_exec_tick_running hrun htick]; rfl
  obtain ⟨hlow, hhigh⟩ := tickLoop_noiseDraws_bounds s.channels s
  refine ⟨t, x, htick, hresponses, hremaining, hen, hmute, hchannels, hconfig, hhost, harbitrations,
    hdraws ▸ hlow, hdraws ▸ hhigh, fun c hc => ?frozen, fun c => ?registers⟩
  case frozen => exact (voice_of_exec_tick htick c).right hc
  case registers => exact (voice_of_exec_tick htick c).left

/-! ### Runs of TICKs -/

/-- A run of TICKs is one TICK and then the run of the others from where it leads. -/
theorem runSteps_ticking_succ (s : State) (k : Nat) :
    ∃ t : State, exec .tick (ticking s k) = .next t ∧
      runSteps (k + 1) (ticking s (k + 1)) = runSteps k (ticking t k) := by
  obtain ⟨t, _, htick, _, _, _, _, _, _, hhost, _⟩ := exec_tick_rest (ticking s k)
  have hrest : ticking t k = t := by
    have hqueue : t.host = List.replicate k .tick := hhost
    rw [ticking, ← hqueue]
  refine ⟨t, htick, ?_⟩
  rw [hrest]
  exact runSteps_succ k htick

/-- `k` TICKs count the countdown down by `k` and answer `k` times (44_sample_producer.md R185). -/
theorem runSteps_ticking_counts (s : State) (k : Nat) :
    ∃ t : State, runSteps k (ticking s k) = .next t ∧ t.remaining.toNat = s.remaining.toNat - k ∧
      t.responses.length = s.responses.length + k := by
  induction k generalizing s with
  | zero => exact ⟨_, rfl, rfl, rfl⟩
  | succ k ih =>
    obtain ⟨u, htick, hrun⟩ := runSteps_ticking_succ s k
    obtain ⟨u', _, htick', hresponses, hremaining, _⟩ := exec_tick_rest (ticking s k)
    obtain rfl : u = u' := Host.Outcome.next.inj (htick.symm.trans htick')
    obtain ⟨t, hrest, hcount, hanswers⟩ := ih u
    have hlength := congrArg List.length hresponses
    simp only [ticking, List.length_append, List.length_singleton] at hremaining hlength
    exact ⟨t, hrun.trans hrest, by omega, by omega⟩

/-- Settles O54: Time writes the countdown that the TICKs then count down. -/
theorem countdownLastsExactlyItsCount : Obligations.CountdownLastsExactlyItsCount := by
  intro s n k
  obtain ⟨t, hrun, hcount, hanswers⟩ :=
    runSteps_ticking_counts (State.answer { s with remaining := n } (.status .ok)) k
  have htime : step { s with host := hostOpOf (.time n) :: List.replicate k .tick } =
      .next (ticking (State.answer { s with remaining := n } (.status .ok)) k) := by
    have hdecode := decodeOfEncodeIsIdentity (.time n) _ rfl rfl
    rw [hostOpOf, encode, Encoding.step_apply, hdecode, exec_time]
    rfl
  refine ⟨t, (runSteps_succ k htime).trans hrun, hcount, ?running, ?answers⟩
  case running =>
    rw [running_iff]
    simp only [answer_remaining] at hcount
    bv_omega
  case answers => simpa using hanswers

/-- A Running TICK counts in the time of an enabled voice (43_voice_compute.md R166). -/
theorem time_of_exec_tick_running {s t : State} {c : Nat} (hrun : s.remaining ≠ 0) (hc : c < s.channels)
    (hen : s.enabledMask.getLsbD c = true) (h : exec .tick s = .next t) :
    (t.voice c).time.toNat = ((s.voice c).time.toNat + 1) % 65536 := by
  obtain ⟨_, _, _, _, _, _, _, hchannels⟩ := tickLoop_rest c s
  rw [voice_of_exec_tick_running hrun h, tickLoop_voice_enabled hc hen, voiceStep_time (hchannels ▸ hc),
    tickLoop_voice_later s le_rfl]

/-- Settles O55, by induction on the number of TICKs: each but the last leaves the countdown at the number of
those to come, or more. -/
theorem timeCountsComputedTicks : Obligations.TimeCountsComputedTicks := by
  intro s t c k hc hen hk h
  induction k generalizing s with
  | zero =>
    obtain rfl := Host.Outcome.next.inj h
    exact (Nat.mod_eq_of_lt (BitVec.isLt _)).symm
  | succ k ih =>
    obtain ⟨u, htick, hrun⟩ := runSteps_ticking_succ s k
    obtain ⟨u', _, htick', _, hremaining, hmask, _, hchannels, _⟩ := exec_tick_rest (ticking s k)
    obtain rfl : u = u' := Host.Outcome.next.inj (htick.symm.trans htick')
    have hrunning : (ticking s k).remaining ≠ 0 := by
      show s.remaining ≠ 0
      bv_omega
    have htime : (u.voice c).time.toNat = ((s.voice c).time.toNat + 1) % 65536 :=
      time_of_exec_tick_running (s := ticking s k) hrunning hc hen htick
    have hleft : u.remaining.toNat = s.remaining.toNat - 1 := hremaining
    have hcount := ih u (lt_of_lt_of_eq hc hchannels.symm) (hmask ▸ hen) (by omega) (hrun ▸ h)
    omega

/-- Settles O56, by induction on the number of TICKs: none of them writes the enabled mask or the voice. -/
theorem disabledVoiceStaysFrozen : Obligations.DisabledVoiceStaysFrozen := by
  intro s t c k hoff h
  induction k generalizing s with
  | zero => obtain rfl := Host.Outcome.next.inj h; rfl
  | succ k ih =>
    obtain ⟨u, htick, hrun⟩ := runSteps_ticking_succ s k
    obtain ⟨u', _, htick', _, _, hmask, _⟩ := exec_tick_rest (ticking s k)
    obtain rfl : u = u' := Host.Outcome.next.inj (htick.symm.trans htick')
    calc t.voice c
      _ = u.voice c := ih u (hmask ▸ hoff) (hrun ▸ h)
      _ = s.voice c := (voice_of_exec_tick htick c).right hoff

/-! ### The masks -/

/-- `s` with the masks `e` and `m`, and no other change. -/
def withMasks (s : State) (e m : Half) : State := { s with enabledMask := e, mutedMask := m }

/-- A VoiceStep neither reads nor writes a mask. -/
theorem voiceStep_withMasks (c : Nat) (s : State) (e m : Half) :
    voiceStep c (withMasks s e m) = withMasks (voiceStep c s) e m := rfl

section Masks
variable {s : State} {e m : Half}

/-- The loop over `n` channels reads the enabled mask below `n` alone, and the muted mask not at all for the state
it ends in (44_sample_producer.md R187). -/
theorem tickLoop_withMasks_state {n : Nat} (he : ∀ c, c < n → e.getLsbD c = s.enabledMask.getLsbD c) :
    (tickLoop n (withMasks s e m)).1 = withMasks (tickLoop n s).1 e m := by
  induction n with
  | zero => rfl
  | succ n ih =>
    obtain ⟨hmask, _⟩ := tickLoop_rest n s
    have hbit : (withMasks (tickLoop n s).1 e m).enabledMask.getLsbD n =
        (tickLoop n s).1.enabledMask.getLsbD n := by rw [hmask]; exact he n (Nat.lt_succ_self n)
    rw [tickLoop_succ, tickLoop_succ, tickChannel_state, tickChannel_state,
      ih fun c hc => he c (Nat.lt_succ_of_lt hc), hbit, voiceStep_withMasks]
    split <;> rfl

/-- The sum of the loop over `n` channels reads the masks below `n` alone (10_state.md R44). -/
theorem tickLoop_withMasks_sum {n : Nat}
    (h : ∀ c, c < n → e.getLsbD c = s.enabledMask.getLsbD c ∧ m.getLsbD c = s.mutedMask.getLsbD c) :
    (tickLoop n (withMasks s e m)).2 = (tickLoop n s).2 := by
  induction n with
  | zero => rfl
  | succ n ih =>
    have hmute : (withMasks s e m).mutedMask.getLsbD n = s.mutedMask.getLsbD n :=
      (h n (Nat.lt_succ_self n)).right
    rw [tickLoop_succ_sum, tickLoop_succ_sum, ih fun c hc => h c (Nat.lt_succ_of_lt hc), hmute,
      tickLoop_withMasks_state fun c hc => (h c hc).left]
    rfl

/-- A TICK of two blocks whose enabled masks agree below N ends, but for the response and the masks, in one
state. -/
theorem exec_tick_withMasks {t t' : State}
    (he : ∀ c, c < s.channels → e.getLsbD c = s.enabledMask.getLsbD c) (h : exec .tick s = .next t)
    (h' : exec .tick (withMasks s e m) = .next t') :
    t' = withMasks { t with responses := t'.responses } e m := by
  by_cases hidle : s.remaining = 0
  case pos =>
    obtain rfl := Host.Outcome.next.inj ((exec_tick_idle hidle).symm.trans h)
    obtain rfl := Host.Outcome.next.inj ((exec_tick_idle (s := withMasks s e m) hidle).symm.trans h')
    rfl
  case neg =>
    rw [eq_of_exec_tick_running hidle h, eq_of_exec_tick_running (s := withMasks s e m) hidle h']
    have hloop := tickLoop_withMasks_state (m := m) he
    have hN : (withMasks s e m).channels = s.channels := rfl
    rw [hN, hloop]
    rfl

end Masks

/-- Settles O57: a TICK with another muted mask differs in the response and that mask. -/
theorem mutedMaskDoesNotReachTheVoices : Obligations.MutedMaskDoesNotReachTheVoices := by
  intro s t t' m h h'
  have hsame := exec_tick_withMasks (e := s.enabledMask) (m := m) (fun _ _ => rfl) h h'
  obtain ⟨u, _, htick, _, _, hmask, _⟩ := exec_tick_rest s
  obtain rfl : t = u := Host.Outcome.next.inj (h.symm.trans htick)
  rw [hsame]
  exact ⟨rfl, rfl, rfl, hmask.symm⟩

/-- Settles O58: the loop over the N channels reads no mask bit at N or above, for the state or for the sum. -/
theorem maskBitsBeyondCountAreInert : Obligations.MaskBitsBeyondCountAreInert := by
  intro s t e m hagree h
  show exec .tick (withMasks s e m) = .next (withMasks t e m)
  by_cases hidle : s.remaining = 0
  case pos =>
    obtain rfl := Host.Outcome.next.inj ((exec_tick_idle hidle).symm.trans h)
    exact exec_tick_idle (s := withMasks s e m) hidle
  case neg =>
    have hstate := tickLoop_withMasks_state (m := m) fun c hc => (hagree c hc).left
    have hsum := tickLoop_withMasks_sum hagree
    have hN : (withMasks s e m).channels = s.channels := rfl
    rw [exec_tick_running (s := withMasks s e m) hidle, eq_of_exec_tick_running hidle h, hN, hstate, hsum]
    rfl

end Sys2Proof.Proofs.Ticks
end

section
/-! PROOFS. What every step keeps and answers: 00_scope.md R12, 10_state.md R42 and R51, 60_exceptions.md R205,
70_reset_and_hazards.md R220 to R225. -/

namespace Sys2Proof.Proofs.Steps

open Sys2Proof Sys2Proof.Machine Sys2Proof.Listing
open Sys2Proof.Proofs.Dispatcher Sys2Proof.Proofs.SampleProducer Sys2Proof.Proofs.Exceptions
open Sys2Proof.Proofs.Events Sys2Proof.Proofs.EventWords Sys2Proof.Proofs.Ticks

/-! ### What a step does, by the host's operation -/

theorem step_of_host_tick {s : State} {rest : List HostOp} (h : s.host = .tick :: rest) :
    step s = exec .tick { s with host := rest } := by
  rw [step, h]

theorem step_of_host_rst {s : State} {offered : List Offer} {rest : List HostOp}
    (h : s.host = .rst offered :: rest) : step s = .next { s with host := rest }.resetState := by
  rw [step, h]; rfl

theorem step_of_host_together {s : State} {w : Word} {rest : List HostOp} (h : s.host = .together w :: rest) :
    step s = s.serialise w rest := by
  rw [step, h]

theorem step_of_host_nil {s : State} (h : s.host = []) : step s = .next s := by
  rw [step, h]

/-- Settles O8: the host's oldest operation selects the step. -/
theorem stepRunsTheDecodedOperation : Obligations.StepRunsTheDecodedOperation :=
  ⟨fun _ _ _ _ h hi => hi ▸ step_of_host_apply h, fun _ _ => step_of_host_tick, fun _ => step_of_host_nil⟩

/-- Settles O9: the free choice puts one of the two first. -/
theorem simultaneousOperationsAreSerialised : Obligations.SimultaneousOperationsAreSerialised := by
  intro s w rest h
  refine ⟨_, step_of_host_together h, ?_⟩
  cases Config.applyFirst s.arbitrations with
  | true => exact .inl rfl
  | false => exact .inr rfl

/-- All that one step can leave: a block that waited, ran one operation, was reset, or had two operations put in
order. -/
theorem step_leaves (s : State) :
    step s = .next s ∨ (∃ i rest, step s = exec i { s with host := rest }) ∨
    (∃ rest, step s = .next { s with host := rest }.resetState) ∨
    (∃ queue k, step s = .next { s with host := queue, arbitrations := k }) := by
  rcases step_cases s with ⟨_, h⟩ | ⟨w, rest, _, h⟩ | ⟨rest, _, h⟩ | ⟨_, rest, _, h⟩ | ⟨w, rest, _, h⟩
  · exact .inl h
  · exact .inr (.inl ⟨_, rest, h⟩)
  · exact .inr (.inl ⟨.tick, rest, h⟩)
  · exact .inr (.inr (.inl ⟨rest, h⟩))
  · exact .inr (.inr (.inr ⟨_, _, h⟩))

/-- Every step keeps what reset and every operation keep, of anything but the queue and the order counter: a
relation between the state before and the state after. -/
theorem step_induction {R : State → State → Prop}
    (hqueue : ∀ s queue k, R s { s with host := queue, arbitrations := k }) (hreset : ∀ s, R s s.resetState)
    (hexec : ∀ i s t, exec i s = .next t → R s t) (htrans : ∀ s t u, R s t → R t u → R s u) {s t : State}
    (h : step s = .next t) : R s t := by
  have hrest (rest : List HostOp) : R s { s with host := rest } := hqueue s rest s.arbitrations
  rcases step_leaves s with hstep | ⟨i, rest, hstep⟩ | ⟨rest, hstep⟩ | ⟨queue, k, hstep⟩
  · obtain rfl := Host.Outcome.next.inj (hstep.symm.trans h)
    exact hrest s.host
  · exact htrans _ _ _ (hrest rest) (hexec i _ t (hstep.symm.trans h))
  · obtain rfl := Host.Outcome.next.inj (hstep.symm.trans h)
    exact htrans _ _ _ (hrest rest) (hreset _)
  · obtain rfl := Host.Outcome.next.inj (hstep.symm.trans h)
    exact hqueue s queue k

/-! ### The configuration and the number of voices -/

theorem exec_keeps_config {i : Instr} {s t : State} (h : exec i s = .next t) :
    t.config = s.config ∧ t.channels = s.channels := by
  by_cases hi : i = .tick
  case pos =>
    obtain ⟨u, _, htick, _, _, _, _, hchannels, hconfig, _⟩ := exec_tick_rest s
    obtain rfl : t = u := Host.Outcome.next.inj (h.symm.trans (hi ▸ htick))
    exact ⟨hconfig, hchannels⟩
  case neg =>
    obtain ⟨u, st, heffect, rfl⟩ := effect_of_exec hi h
    obtain ⟨hconfig, hchannels, _⟩ := heffect.frame
    exact ⟨hconfig, hchannels⟩

/-- Settles O15: no operation and no reset writes the configuration or the length of the voice file. -/
theorem configurationNeverChanges : Obligations.ConfigurationNeverChanges := fun _ _ h =>
  step_induction (R := fun s t => t.config = s.config ∧ t.channels = s.channels)
    (fun _ _ _ => ⟨rfl, rfl⟩) (fun s => ⟨rfl, resetState_channels s⟩) (fun _ _ _ => exec_keeps_config)
    (fun _ _ _ ⟨hconfig, hN⟩ ⟨hconfig', hN'⟩ => ⟨hconfig'.trans hconfig, hN'.trans hN⟩) h

/-! ### Well-formed states -/

/-- A state is well-formed that keeps N and the configuration of a well-formed one and has well-formed voices. -/
theorem wf_of_frame {s t : State} (hs : s.wf = true) (hconfig : t.config = s.config)
    (hN : t.channels = s.channels)
    (hvoices : ∀ c, c < s.channels → (s.voice c).wf s.channels = true → (t.voice c).wf s.channels = true) :
    t.wf = true := by
  obtain ⟨hcount, hvalid, hwf⟩ := (wf_iff s).mp hs
  refine (wf_iff t).mpr ⟨hN ▸ hcount, hconfig ▸ hvalid, fun c hc => ?_⟩
  rw [hN] at hc ⊢
  exact hvoices c hc (hwf c hc)

/-- The invariants of a voice read only registers that a TICK keeps (10_state.md R42). -/
theorem voice_wf_of_eventRegisters {n : Nat} {v w : Voice} (h : SameEventRegisters v w) (hw : w.wf n = true) :
    v.wf n = true := by
  obtain ⟨_, _, _, hpmEn, hpmSrc, hamEn, hamSrc⟩ := h
  rw [voice_wf_iff] at hw ⊢
  rwa [hpmEn, hpmSrc, hamEn, hamSrc]

theorem resetState_wf {s : State} (hs : s.wf = true) : s.resetState.wf = true := by
  refine wf_of_frame hs rfl (resetState_channels s) fun c _ _ => ?_
  rw [resetState_voice]; rfl

theorem effect_wf {i : Instr} {s u : State} {st : Status} (h : Effect i s u st) (hs : s.wf = true) :
    u.wf = true := by
  cases h with
  | rejected => exact hs
  | ended => exact resetState_wf hs
  | timed | enabled | muted => exact wf_of_frame hs rfl rfl fun _ _ hv => hv
  | @wrote c f _ hc hf =>
    refine wf_of_frame hs rfl (setVoice_channels s _ _) fun d _ hv => ?_
    by_cases hd : d = c.toNat
    · subst hd; rw [voice_setVoice_self s _ _ hc]; exact hf.wf _ hv
    · rw [voice_setVoice_ne s _ _ hd]; exact hv

theorem exec_wf {i : Instr} {s t : State} (h : exec i s = .next t) (hs : s.wf = true) : t.wf = true := by
  obtain ⟨hconfig, hN⟩ := exec_keeps_config h
  by_cases hi : i = .tick
  case pos =>
    refine wf_of_frame hs hconfig hN fun c _ hv => ?_
    exact voice_wf_of_eventRegisters (voice_of_exec_tick (hi ▸ h) c).left hv
  case neg =>
    obtain ⟨u, st, heffect, rfl⟩ := effect_of_exec hi h
    exact (effect_wf heffect hs : u.wf = true)

theorem step_wf {s t : State} (hs : s.wf = true) (h : step s = .next t) : t.wf = true :=
  step_induction (R := fun s t => s.wf = true → t.wf = true) (fun _ _ _ hs => hs)
    (fun _ => resetState_wf) (fun _ _ _ => exec_wf) (fun _ _ _ hst htu hs => htu (hst hs)) h hs

/-- Settles O13: a source is written as a channel below N or not at all, and no other step writes one but a
reset. -/
theorem stepKeepsWellFormedState : Obligations.StepKeepsWellFormedState := by
  intro s t hs h
  have ht := step_wf hs h
  obtain ⟨_, _, hvoices⟩ := (wf_iff t).mp ht
  exact ⟨ht, fun c hc => ⟨Nat.le_of_lt_succ (BitVec.isLt _), (voice_wf_iff _ _).mp (hvoices c hc)⟩⟩

/-! ### Construction and reset -/

/-- The bounds of a configuration as propositions (00_scope.md R7, R8, R10). -/
theorem valid_iff (n : Nat) (cfg : Config) :
    (Config.validCount n && cfg.valid) = true ↔
      1 ≤ n ∧ n ≤ 16 ∧ 1 ≤ cfg.sampleRate ∧ cfg.sampleRate ≤ 4294967295 ∧
        cfg.sineLut.length = 360 ∧ ∀ m ∈ cfg.sineLut, m ≤ 254 := by
  simp [Config.validCount, Config.valid, and_assoc]

/-- Settles O12: construction is refused exactly when the check fails. -/
theorem constructionChecksTheConfiguration : Obligations.ConstructionChecksTheConfiguration := by
  intro n cfg
  have hvalid := valid_iff n cfg
  rcases construct_cases n cfg with ⟨hgood, hbuilt⟩ | ⟨hbad, hrefused⟩
  · exact ⟨fun _ => hbuilt, fun hnot => absurd (hvalid.mp hgood) hnot⟩
  · exact ⟨fun hgood => absurd (hvalid.mpr hgood) (by simp [hbad]), fun _ => hrefused⟩

theorem eq_of_construct {n : Nat} {cfg : Config} {t : State} (h : construct n cfg = .next t) :
    t = State.fresh n cfg ∧ (Config.validCount n && cfg.valid) = true := by
  rcases construct_cases n cfg with ⟨hgood, hbuilt⟩ | ⟨_, hrefused⟩
  · exact ⟨Host.Outcome.next.inj (h.symm.trans hbuilt), hgood⟩
  · rw [hrefused] at h; cases h

theorem fresh_channels (n : Nat) (cfg : Config) : (State.fresh n cfg).channels = n := List.length_replicate

/-- A block just built is one that a reset would not change. -/
theorem fresh_resetState (n : Nat) (cfg : Config) : (State.fresh n cfg).resetState = State.fresh n cfg := by
  simp [State.resetState, State.fresh, State.channels]

theorem allReset_fresh (n : Nat) (cfg : Config) : allReset (State.fresh n cfg) := by
  rw [← fresh_resetState]
  exact allReset_resetState _

theorem fresh_wf {n : Nat} {cfg : Config} (h : (Config.validCount n && cfg.valid) = true) :
    (State.fresh n cfg).wf = true := by
  obtain ⟨hcount, hvalid⟩ := Bool.and_eq_true_iff.mp h
  refine (wf_iff _).mpr ⟨by rwa [fresh_channels], hvalid, fun c _ => ?_⟩
  rw [← fresh_resetState, resetState_voice]; rfl

/-- The reference parameters are within their bounds (00_scope.md R7 to R10). -/
theorem reference_valid : (Config.validCount 16 && Config.reference.valid) = true := by
  decide +kernel

/-- Settles O14: a fresh block has reset voices, and construction has checked its parameters. -/
theorem resetStateIsWellFormed : Obligations.ResetStateIsWellFormed := by
  refine ⟨fresh_wf reference_valid, fun n cfg t h => ?_⟩
  obtain ⟨rfl, hgood⟩ := eq_of_construct h
  exact fresh_wf hgood

/-- Settles O10: construction, `rst` and End leave a reset block. -/
theorem resetValuesOfEveryField : Obligations.ResetValuesOfEveryField := by
  refine ⟨allReset_fresh _ _, fun n cfg t h => ?built, fun s offered rest h => ?rst, fun s t h => ?ended⟩
  case built =>
    obtain ⟨rfl, _⟩ := eq_of_construct h
    exact ⟨allReset_fresh n cfg, fresh_channels n cfg, rfl⟩
  case rst => exact ⟨_, step_of_host_rst h, allReset_resetState _, resetState_channels _, rfl⟩
  case ended =>
    obtain rfl := eq_of_exec_endEvt h
    exact ⟨allReset_resetState s, resetState_channels s, rfl⟩

/-- One End or `rst` from the queue resets the block and leaves the rest of the queue and the draws alone. -/
theorem step_resetting {s : State} {op : HostOp} {rest : List HostOp} (hhost : s.host = op :: rest)
    (hop : (∃ offered, op = .rst offered) ∨ ∃ w : Word, op = .apply w ∧ kind w = 0) :
    ∃ t, step s = .next t ∧ t.host = rest ∧ t.voices = List.replicate s.channels Voice.reset ∧
      t.enabledMask = 0 ∧ t.mutedMask = 0 ∧ t.remaining = 0 ∧ t.config = s.config ∧
      t.noiseDraws = s.noiseDraws := by
  rcases hop with ⟨offered, rfl⟩ | ⟨w, rfl, hw⟩
  · exact ⟨_, step_of_host_rst hhost, rfl, rfl, rfl, rfl, rfl, rfl, rfl⟩
  · have hstep := step_of_host_apply hhost
    rw [(kindRow_decodeWord w).eq_endEvt hw, exec_endEvt] at hstep
    exact ⟨_, hstep, rfl, rfl, rfl, rfl, rfl, rfl, rfl⟩

/-- Settles O11, by induction on the sequence: each of its operations resets the block, whatever the ones before
it left. -/
theorem resetSequencesAreIdempotent : Obligations.ResetSequencesAreIdempotent := by
  intro s ops hne hops
  induction ops generalizing s with
  | nil => exact absurd rfl hne
  | cons op rest ih =>
    obtain ⟨u, hstep, hhost, hvoices, hen, hmute, hremaining, hconfig, hdraws⟩ :=
      step_resetting (s := { s with host := op :: rest }) rfl (hops op List.mem_cons_self)
    have hrun := runSteps_succ rest.length hstep
    cases rest with
    | nil => exact ⟨u, hrun, hvoices, hen, hmute, hremaining, hconfig, hdraws⟩
    | cons op' rest' =>
      obtain ⟨t, hrest, hvoices', hen', hmute', hremaining', hconfig', hdraws'⟩ :=
        ih u (List.cons_ne_nil _ _) fun o ho => hops o (List.mem_cons_of_mem _ ho)
      have hN : u.channels = s.channels := by rw [State.channels, hvoices, List.length_replicate]; rfl
      have hqueue : { u with host := op' :: rest' } = u := by rw [← hhost]
      rw [hqueue] at hrest
      exact ⟨t, hrun.trans hrest, hN ▸ hvoices', hen', hmute', hremaining', hconfig'.trans hconfig,
        hdraws'.trans hdraws⟩

/-! ### The answers -/

theorem code_le_four (st : Status) : st.code.toNat ≤ 4 := by
  cases st <;> decide

theorem exec_answers_once (i : Instr) (s : State) :
    ∃ (t : State) (r : Response), exec i s = .next t ∧ t.responses = s.responses ++ [r] ∧ t.host = s.host ∧
      t.arbitrations = s.arbitrations ∧ (i = .tick → ∃ x, r = .sample x) ∧
      (i ≠ .tick → ∃ st : Status, r = .status st ∧ st.code.toNat ≤ 4) := by
  by_cases hi : i = .tick
  case pos =>
    obtain ⟨t, x, htick, hresponses, _, _, _, _, _, hhost, harbitrations⟩ := exec_tick_rest s
    exact ⟨t, .sample x, hi ▸ htick, hresponses, hhost, harbitrations, fun _ => ⟨x, rfl⟩,
      fun hne => absurd hi hne⟩
  case neg =>
    obtain ⟨u, st, heffect, hexec⟩ := applies_exec (s := s) hi
    obtain ⟨_, _, hhost, hresponses, _, harbitrations⟩ := heffect.frame
    exact ⟨_, .status st, hexec, congrArg (· ++ _) hresponses, hhost, harbitrations,
      fun htick => absurd htick hi, fun _ => ⟨st, rfl, code_le_four st⟩⟩

theorem step_completes (s : State) : ∃ t : State, step s = .next t := by
  rcases step_leaves s with hstep | ⟨i, rest, hstep⟩ | ⟨rest, hstep⟩ | ⟨queue, k, hstep⟩
  · exact ⟨_, hstep⟩
  · obtain ⟨t, _, hexec, _⟩ := exec_answers_once i { s with host := rest }
    exact ⟨t, hstep.trans hexec⟩
  · exact ⟨_, hstep⟩
  · exact ⟨_, hstep⟩

/-- Settles O16: an APPLY has one of its effects, a TICK emits, and the other steps complete by definition. -/
theorem everyOperationAnswersOnce : Obligations.EveryOperationAnswersOnce :=
  ⟨exec_answers_once, step_completes, rfl, rfl, rfl, rfl, rfl⟩

end Sys2Proof.Proofs.Steps
end

section
/-! PROOFS. 42_sine_approximator.md R145, R146 and R148: the fold table of the sine, its laws and its range. -/

namespace Sys2Proof.Proofs.Sine

open Sys2Proof Sys2Proof.Machine Sys2Proof.Listing

/-- The sine reads its angle modulo 1440 (42_sine_approximator.md R141). -/
theorem sine_congr (cfg : Config) {a b : Int} (h : a % 1440 = b % 1440) : sine cfg a = sine cfg b := by
  simp only [sine, h]

/-- The table is read at the folded angle, and the second half-wave is negative (42_sine_approximator.md R145). -/
theorem sine_eq (cfg : Config) (a : Int) :
    sine cfg a =
      if 720 ≤ a % 1440 then -lut cfg (quarterFold (halfFold (a % 1440))).toNat
      else lut cfg (quarterFold (halfFold (a % 1440))).toNat := rfl

section Quadrants
variable (cfg : Config) {a : Int}

/-- The four rows of the fold table (42_sine_approximator.md R145). -/
theorem sine_first_quadrant (h : a % 1440 < 360) : sine cfg a = lut cfg (a % 1440).toNat := by
  have hfold : quarterFold (halfFold (a % 1440)) = a % 1440 := by
    rw [halfFold, if_neg (by omega), quarterFold, if_neg (by omega)]
  rw [sine_eq, if_neg (by omega), hfold]

theorem sine_second_quadrant (h₁ : 360 ≤ a % 1440) (h₂ : a % 1440 < 720) :
    sine cfg a = lut cfg (719 - a % 1440).toNat := by
  have hfold : quarterFold (halfFold (a % 1440)) = 719 - a % 1440 := by
    rw [halfFold, if_neg (by omega), quarterFold, if_pos h₁]; omega
  rw [sine_eq, if_neg (by omega), hfold]

theorem sine_third_quadrant (h₁ : 720 ≤ a % 1440) (h₂ : a % 1440 < 1080) :
    sine cfg a = -lut cfg (a % 1440 - 720).toNat := by
  have hfold : quarterFold (halfFold (a % 1440)) = a % 1440 - 720 := by
    rw [halfFold, if_pos h₁, quarterFold, if_pos (by omega)]; omega
  rw [sine_eq, if_pos h₁, hfold]

theorem sine_fourth_quadrant (h : 1080 ≤ a % 1440) : sine cfg a = -lut cfg (1439 - a % 1440).toNat := by
  have hfold : quarterFold (halfFold (a % 1440)) = 1439 - a % 1440 := by
    rw [halfFold, if_pos (by omega), quarterFold, if_neg (by omega)]; omega
  rw [sine_eq, if_pos (by omega), hfold]

end Quadrants

/-- Settles O37, quadrant by quadrant. -/
theorem sineFollowsTheFoldTable : Obligations.SineFollowsTheFoldTable := fun cfg a =>
  ⟨sine_first_quadrant cfg, sine_second_quadrant cfg, sine_third_quadrant cfg, sine_fourth_quadrant cfg,
    fold_bounds a⟩

/-! ### The sine of an angle named by the table's index -/

section Index
variable (cfg : Config) {i : Int} (h₀ : 0 ≤ i) (h₁ : i ≤ 359)
include h₀ h₁

/-- The angles of the four quadrants that read entry `i` of the table. -/
theorem sine_of_index : sine cfg i = lut cfg i.toNat := by
  have hr : i % 1440 = i := by omega
  rw [sine_first_quadrant cfg (by omega), hr]

theorem sine_mirrored : sine cfg (719 - i) = lut cfg i.toNat := by
  have hr : 719 - (719 - i) % 1440 = i := by omega
  rw [sine_second_quadrant cfg (by omega) (by omega), hr]

theorem sine_half_turn : sine cfg (720 + i) = -lut cfg i.toNat := by
  have hr : (720 + i) % 1440 - 720 = i := by omega
  rw [sine_third_quadrant cfg (by omega) (by omega), hr]

theorem sine_reversed : sine cfg (1439 - i) = -lut cfg i.toNat := by
  have hr : 1439 - (1439 - i) % 1440 = i := by omega
  rw [sine_fourth_quadrant cfg (by omega), hr]

end Index

/-- Half a turn on, the sine is negated (42_sine_approximator.md R148). -/
theorem sine_add_half_turn (cfg : Config) {a : Int} (h₀ : 0 ≤ a) (h₁ : a ≤ 719) :
    sine cfg (a + 720) = -sine cfg a := by
  by_cases hlow : a ≤ 359
  case pos => rw [sine_of_index cfg h₀ hlow, Int.add_comm, sine_half_turn cfg h₀ hlow]
  case neg =>
    obtain ⟨i, rfl⟩ : ∃ i, a = 719 - i := ⟨719 - a, by omega⟩
    have hangle : 719 - i + 720 = 1439 - i := by omega
    rw [hangle, sine_reversed cfg (by omega) (by omega), sine_mirrored cfg (by omega) (by omega)]

/-- Settles O38, by the entry that each angle reads. -/
theorem sineLawsHoldForEveryTable : Obligations.SineLawsHoldForEveryTable := by
  intro cfg
  refine ⟨fun a k => sine_congr cfg (Int.add_mul_emod_self_left a 1440 k),
    fun a h₀ h₁ => ⟨?mirrored, ?reversed⟩, fun a => sine_add_half_turn cfg, sine_of_index cfg (by decide) (by decide),
    sine_mirrored cfg (i := 359) (by decide) (by decide), sine_half_turn cfg (i := 359) (by decide) (by decide),
    sine_reversed cfg (i := 359) (by decide) (by decide), sine_of_index cfg (by decide) (by decide),
    sine_mirrored cfg (i := 0) (by decide) (by decide), sine_half_turn cfg (i := 0) (by decide) (by decide),
    sine_reversed cfg (i := 0) (by decide) (by decide)⟩
  case mirrored =>
    have hangle : 720 - a - 1 = 719 - a := by omega
    rw [hangle, sine_mirrored cfg h₀ h₁, sine_of_index cfg h₀ h₁]
  case reversed =>
    have hangle : 1440 - a - 1 = 1439 - a := by omega
    rw [hangle, sine_reversed cfg h₀ h₁, sine_of_index cfg h₀ h₁]

/-! ### The range -/

theorem lutRead_bounds {cfg : Config} {m : Nat} (h : ∀ x ∈ cfg.sineLut, x ≤ m) (i : Int) :
    0 ≤ lutRead cfg i ∧ lutRead cfg i ≤ m := by
  rcases lutRead_cases cfg i with hzero | ⟨x, hx, hread⟩
  · omega
  · have hbound := h x hx
    omega

/-- The sine lies within the table's maximum (42_sine_approximator.md R146). -/
theorem sine_bounds {cfg : Config} {m : Nat} (h : ∀ x ∈ cfg.sineLut, x ≤ m) (a : Int) :
    -(m : Int) ≤ sine cfg a ∧ sine cfg a ≤ m := by
  have hread := lutRead_bounds h (quarterFold (halfFold (a % 1440)))
  rw [sine]
  split <;> omega

/-- A valid table holds no entry above 254 (00_scope.md R10). -/
theorem table_le_of_valid {cfg : Config} (h : cfg.valid = true) : ∀ x ∈ cfg.sineLut, x ≤ 254 := by
  simp only [Config.valid, Bool.and_eq_true, List.all_eq_true, decide_eq_true_eq] at h
  obtain ⟨_, htable⟩ := h
  exact htable

/-- Settles O39: every output is an entry or its negative, and every entry is the output of its own index and, half
a turn on, negated. -/
theorem sineOutputRange : Obligations.SineOutputRange := by
  refine ⟨fun cfg m a h => sine_bounds h a, fun cfg a h => sine_bounds (table_le_of_valid h) a,
    fun cfg i hi => ⟨⟨i, ?entry⟩, ⟨720 + i, ?negative⟩⟩⟩
  case entry => exact sine_of_index cfg (by omega) (by omega)
  case negative => exact sine_half_turn cfg (by omega) (by omega)

end Sys2Proof.Proofs.Sine
end

section
/-! PROOFS. 43_voice_compute.md R156 to R160, R162 and R167, and 70_reset_and_hazards.md R228: the samples of the
noise and tone modes, the frequency ramp, the widths of the datapath, and the wrap of `time`. -/

namespace Sys2Proof.Proofs.Datapath

open Sys2Proof Sys2Proof.Machine Sys2Proof.Listing
open Sys2Proof.Proofs.VoiceEvents Sys2Proof.Proofs.VoiceCompute
open Sys2Proof.Proofs.Events Sys2Proof.Proofs.Ticks Sys2Proof.Proofs.Sine

/-! ### The noise and tone modes -/

section Modes
variable {v : Voice} {am : Int} (cfg : Config) (pm r : Int)

/-- A noise voice is its draw times its amplitude, behind the shift (43_voice_compute.md R156, R160). -/
theorem rawSample_of_noise (hnoise : v.frequency = 0xFFFF) (h : ampOf v am ≠ 0) :
    rawSample cfg v am pm r = asr (r * ampOf v am) v.amplitudeScale.toNat := by
  have hmode : modeOf v.frequency = .noise := by rw [hnoise]; decide
  rw [rawSample, if_neg h, modeSample, hmode]

/-- A tone voice is the sine of its angle times its amplitude, behind the shift (43_voice_compute.md R159, R160). -/
theorem rawSample_of_tone (hdc : v.frequency ≠ 0) (hnoise : v.frequency ≠ 0xFFFF) (h : ampOf v am ≠ 0) :
    rawSample cfg v am pm r =
      asr (sine cfg (angleOf cfg v pm % 1440) * ampOf v am) v.amplitudeScale.toNat := by
  have hmode : modeOf v.frequency = .tone := by rw [modeOf, if_neg hdc, if_neg hnoise]
  rw [rawSample, if_neg h, modeSample, hmode]

end Modes

/-- A step takes a draw exactly in noise mode with an amplitude (43_voice_compute.md R154, R156). -/
theorem takesDraw_iff (v : Voice) (am : Int) :
    takesDraw v am = true ↔ v.frequency = 0xFFFF ∧ ampOf v am ≠ 0 := by
  obtain ⟨_, htable, _⟩ := modeOf_table v.frequency
  have hnumber : v.frequency = 0xFFFF ↔ v.frequency.toNat = 65535 := BitVec.toNat_inj.symm
  have hnoise := htable.trans hnumber.symm
  simp only [takesDraw, Bool.and_eq_true, bne_iff_ne, beq_iff_eq, hnoise, ne_eq]
  exact and_comm

/-- Every draw is a nine-bit signed number (00_scope.md R11). -/
theorem draw_bounds (s : State) : -256 ≤ s.draw ∧ s.draw ≤ 255 := by
  have hlow : -2 ^ 8 ≤ s.draw := BitVec.le_toInt _
  have hhigh : s.draw < 2 ^ 8 := BitVec.toInt_lt
  omega

/-- Settles O42, by the condition under which a step takes a draw. -/
theorem noiseModeConsumesOneDraw : Obligations.NoiseModeConsumesOneDraw := by
  intro s c hc
  have htakes := takesDraw_iff (s.voice c) (s.lastSample (s.voice c).amSrc.toNat)
  rw [ampOf_eq_amp] at htakes
  refine ⟨fun hnoise hamp => ?noise, fun hother => ?other⟩
  case noise =>
    obtain ⟨hlow, hhigh⟩ := draw_bounds s
    refine ⟨?_, hlow, hhigh, ?_⟩
    · rw [voiceStep_noiseDraws, if_pos (htakes.mpr ⟨hnoise, hamp⟩)]
    · rw [← ampOf_eq_amp] at hamp
      rw [voiceStep_lastSample hc, rawSample_of_noise _ _ _ hnoise hamp, ampOf_eq_amp, asr]
  case other =>
    have hnone : ¬ takesDraw (s.voice c) (s.lastSample (s.voice c).amSrc.toNat) = true := by
      rw [htakes]
      rintro ⟨hnoise, hamp⟩
      exact hother.elim (· hnoise) hamp
    rw [voiceStep_noiseDraws, if_neg hnone, Nat.add_zero]

/-- The datapath's angle is that of the listing when it is given the modulator's sample in the state
(43_voice_compute.md R157, R158). -/
theorem angleOf_eq_angle (s : State) (v : Voice) :
    angleOf s.config v (s.lastSample v.pmSrc.toNat) = angle s v := by
  cases hen : v.pmEn <;> simp [angleOf, angle, zext, hen]

/-- The product before the division, below any frequency and time (43_voice_compute.md R157). -/
theorem phase_product_le {f t F T : Nat} (hf : f ≤ F) (ht : t ≤ T) : 1440 * f * t ≤ 1440 * F * T :=
  Nat.mul_le_mul (Nat.mul_le_mul_left _ hf) ht

/-- In DC and noise mode no part of the sample reads the phase modulator (43_voice_compute.md R158). -/
theorem rawSample_ignores_phase {v : Voice} (h : v.frequency = 0 ∨ v.frequency = 0xFFFF) (cfg : Config)
    (am pm pm' r : Int) : rawSample cfg v am pm r = rawSample cfg v am pm' r := by
  by_cases hamp : ampOf v am = 0
  · rw [rawSample_of_ampOf_zero _ _ _ hamp, rawSample_of_ampOf_zero _ _ _ hamp]
  · rcases h with hdc | hnoise
    · rw [rawSample_of_dc _ _ _ hdc hamp, rawSample_of_dc _ _ _ hdc hamp]
    · rw [rawSample_of_noise _ _ _ hnoise hamp, rawSample_of_noise _ _ _ hnoise hamp]

/-- Settles O43: the tone sample in the listing's arithmetic, and the two modes that read no phase. -/
theorem toneModeStoresTheScaledSine : Obligations.ToneModeStoresTheScaledSine := by
  refine ⟨fun s c hc hdc hnoise hamp => ⟨?product, ?sample⟩, fun cfg v am pm pm' r h => ?phase⟩
  case product =>
    have hf := (s.voice c).frequency.isLt
    have ht := (s.voice c).time.isLt
    have hle := phase_product_le (Nat.le_of_lt_succ hf) (Nat.le_of_lt_succ ht)
    exact lt_of_le_of_lt hle (by decide)
  case sample =>
    rw [← ampOf_eq_amp] at hamp
    rw [voiceStep_lastSample hc, rawSample_of_tone _ _ _ hdc hnoise hamp, angleOf_eq_angle, ampOf_eq_amp, asr]
  case phase => rw [voiceAfter, voiceAfter, rawSample_ignores_phase h cfg am pm pm' r]

/-! ### The frequency ramp -/

/-- A nonzero step is added and the sum clamped to 0..MAX_FREQUENCY (43_voice_compute.md R162). -/
theorem rampFrequency_frequency (cfg : Config) {v : Voice} (h : v.frequencyStep ≠ 0) :
    ((rampFrequency cfg v).frequency.toNat : Int) =
      max 0 (min (v.frequency.toNat + v.frequencyStep.toInt) cfg.maxFrequency.toNat) := by
  have hclamp (x hi : Int) (hhi : 0 ≤ hi) : clamp x 0 hi = max 0 (min x hi) := by
    unfold clamp
    split
    next => omega
    next => split <;> omega
  have hmax := cfg.maxFrequency.isLt
  have hpos : 0 ≤ zext cfg.maxFrequency := Int.natCast_nonneg _
  rcases rampFrequency_cases cfg v with ⟨hzero, _⟩ | ⟨_, hwrite⟩
  · exact absurd hzero h
  · rw [hwrite, hclamp _ _ hpos, BitVec.toNat_ofInt]
    simp only [zext]
    omega

/-- Settles O45: on a ramp tick the frequency is that of its ramp, and no VoiceStep writes the step. -/
theorem frequencyRampClamps : Obligations.FrequencyRampClamps := by
  intro s c hc hdue
  obtain ⟨hstored, _⟩ := voiceStep_ramped hc
  rw [ramp_of_due _ hdue] at hstored
  obtain ⟨hstep, _⟩ := voiceStep_eventRegisters c c s
  refine ⟨fun hne => ?ramped, fun hzero => ?still, hstep⟩
  case ramped => rw [hstored, rampFrequency_frequency _ hne]
  case still => rw [hstored, rampFrequency_of_step_zero _ hzero]

/-! ### The widths of the datapath -/

theorem sext_bounds (x : Half) : -32768 ≤ sext x ∧ sext x ≤ 32767 := by
  have hlow : -2 ^ 15 ≤ sext x := BitVec.le_toInt _
  have hhigh : sext x < 2 ^ 15 := BitVec.toInt_lt
  omega

/-- A byte plus at most a signed sample (43_voice_compute.md R167). -/
theorem ampOf_bounds (v : Voice) (am : Half) : -32768 ≤ ampOf v (sext am) ∧ ampOf v (sext am) ≤ 33022 := by
  have hbyte := v.amplitude.isLt
  have hsample := sext_bounds am
  simp only [ampOf, zext]
  split <;> omega

/-- A product lies where it lies with its first factor at either end of its range. -/
theorem mul_between {x y a b lo hi : Int} (hx : a ≤ x ∧ x ≤ b) (ha : lo ≤ a * y ∧ a * y ≤ hi)
    (hb : lo ≤ b * y ∧ b * y ≤ hi) : lo ≤ x * y ∧ x * y ≤ hi := by
  obtain ⟨hax, hxb⟩ := hx
  rcases le_total 0 y with hy | hy
  · have hlow := mul_le_mul_of_nonneg_right hax hy
    have hhigh := mul_le_mul_of_nonneg_right hxb hy
    omega
  · have hlow := mul_le_mul_of_nonpos_right hxb hy
    have hhigh := mul_le_mul_of_nonpos_right hax hy
    omega

/-- A product of two ranges lies where the four products of their ends lie. -/
theorem mul_bounds {x y a b c d lo hi : Int} (hx : a ≤ x ∧ x ≤ b) (hy : c ≤ y ∧ y ≤ d)
    (ha : (lo ≤ c * a ∧ c * a ≤ hi) ∧ lo ≤ d * a ∧ d * a ≤ hi)
    (hb : (lo ≤ c * b ∧ c * b ≤ hi) ∧ lo ≤ d * b ∧ d * b ≤ hi) : lo ≤ x * y ∧ x * y ≤ hi := by
  refine mul_between hx ?_ ?_
  · rw [Int.mul_comm]; exact mul_between hy ha.left ha.right
  · rw [Int.mul_comm]; exact mul_between hy hb.left hb.right

/-- An arithmetic shift to the right leaves a range around 0 (43_voice_compute.md R160). -/
theorem asr_bounds {x lo hi : Int} (hlo : lo ≤ 0) (hhi : 0 ≤ hi) (hx : lo ≤ x ∧ x ≤ hi) (n : Nat) :
    lo ≤ asr x n ∧ asr x n ≤ hi := by
  have hpow : (0 : Int) < 2 ^ n := by positivity
  have hone : (1 : Int) ≤ 2 ^ n := hpow
  obtain ⟨hlow, hhigh⟩ := hx
  constructor
  · rw [asr, Int.le_ediv_iff_mul_le hpow]
    nlinarith
  · exact Int.ediv_le_of_le_mul hpow (by nlinarith)

section Widths
variable {cfg : Config} (v : Voice) (am pm : Half)

theorem sine_mul_ampOf_bounds (hvalid : cfg.valid = true) (a : Int) :
    -8387588 ≤ sine cfg a * ampOf v (sext am) ∧ sine cfg a * ampOf v (sext am) ≤ 8387588 :=
  mul_bounds (sine_bounds (table_le_of_valid hvalid) a) (ampOf_bounds v am) (by decide) (by decide)

theorem draw_mul_ampOf_bounds {r : Int} (hr : -256 ≤ r ∧ r ≤ 255) :
    -8453632 ≤ r * ampOf v (sext am) ∧ r * ampOf v (sext am) ≤ 8420610 :=
  mul_bounds hr (ampOf_bounds v am) (by decide) (by decide)

/-- The sample after the shift lies within the widest of the modes, the noise mode (43_voice_compute.md R167). -/
theorem rawSample_bounds (hvalid : cfg.valid = true) {r : Int} (hr : -256 ≤ r ∧ r ≤ 255) :
    -8453632 ≤ rawSample cfg v (sext am) (sext pm) r ∧ rawSample cfg v (sext am) (sext pm) r ≤ 8420610 := by
  by_cases hamp : ampOf v (sext am) = 0
  case pos => rw [rawSample_of_ampOf_zero _ _ _ hamp]; decide
  case neg =>
    rcases modeOf_cases v.frequency with ⟨hdc, _⟩ | ⟨hnoise, _⟩ | ⟨hdc, hnoise, _⟩
    · have hbounds := ampOf_bounds v am
      rw [rawSample_of_dc _ _ _ hdc hamp]
      exact asr_bounds (by decide) (by decide) (by omega) _
    · rw [rawSample_of_noise _ _ _ hnoise hamp]
      exact asr_bounds (by decide) (by decide) (draw_mul_ampOf_bounds v am hr) _
    · have hbounds := sine_mul_ampOf_bounds v am hvalid (angleOf cfg v (sext pm) % 1440)
      rw [rawSample_of_tone _ _ _ hdc hnoise hamp]
      exact asr_bounds (by decide) (by decide) (by omega) _

/-- The phase product of a voice that is not in noise mode (43_voice_compute.md R167). -/
theorem phase_product_bound (hnoise : v.frequency ≠ 0xFFFF) :
    1440 * v.frequency.toNat * v.time.toNat ≤ 6184469793600 := by
  have hf : v.frequency.toNat ≤ 65534 := by bv_omega
  exact phase_product_le hf (Nat.le_of_lt_succ v.time.isLt)

/-- The division only narrows the product, and the phase modulator adds at most a sample
(43_voice_compute.md R167). -/
theorem angleOf_bounds (hnoise : v.frequency ≠ 0xFFFF) :
    -32768 ≤ angleOf cfg v (sext pm) ∧ angleOf cfg v (sext pm) ≤ 6184469826367 := by
  have hproduct := phase_product_bound v hnoise
  have hsample := sext_bounds pm
  have hangle : 1440 * zext v.frequency * zext v.time / (cfg.sampleRate : Int) =
      ((1440 * v.frequency.toNat * v.time.toNat / cfg.sampleRate : Nat) : Int) := by
    simp only [zext]; norm_cast
  have hle : 1440 * v.frequency.toNat * v.time.toNat / cfg.sampleRate ≤ 6184469793600 :=
    (Nat.div_le_self _ _).trans hproduct
  generalize 1440 * v.frequency.toNat * v.time.toNat / cfg.sampleRate = quotient at hangle hle
  simp only [angleOf, hangle]
  split <;> omega

end Widths

/-- Settles O48, quantity by quantity of the table of 43_voice_compute.md R167. -/
theorem datapathStaysWithinItsWidths : Obligations.DatapathStaysWithinItsWidths := by
  intro cfg v am pm r hvalid hlow hhigh
  have hfrequency := v.frequency.isLt
  have hfrequencyStep : -2 ^ 15 ≤ v.frequencyStep.toInt ∧ v.frequencyStep.toInt < 2 ^ 15 :=
    ⟨BitVec.le_toInt _, BitVec.toInt_lt⟩
  have hamplitude := v.amplitude.isLt
  have hamplitudeStep : -2 ^ 7 ≤ v.amplitudeStep.toInt ∧ v.amplitudeStep.toInt < 2 ^ 7 :=
    ⟨BitVec.le_toInt _, BitVec.toInt_lt⟩
  exact ⟨ampOf_bounds v am,
    fun hnoise => ⟨phase_product_bound v hnoise, angleOf_bounds v pm hnoise⟩,
    sine_mul_ampOf_bounds v am hvalid, draw_mul_ampOf_bounds v am ⟨hlow, hhigh⟩,
    rawSample_bounds v am pm hvalid ⟨hlow, hhigh⟩, by omega, by omega⟩

/-! ### The wrap of `time` -/

/-- When `f * 65536` is a multiple of the rate, 65536 more ticks are whole turns of the angle. -/
theorem phase_of_unwrapped {f t rate : Nat} (hrate : 1 ≤ rate) (h : rate ∣ f * 65536) :
    ∃ turns, 1440 * f * t / rate = 1440 * f * (t % 65536) / rate + 1440 * turns := by
  obtain ⟨k, hk⟩ := h
  refine ⟨k * (t / 65536), ?_⟩
  have hsplit : 1440 * f * t = 1440 * f * (t % 65536) + rate * (1440 * (k * (t / 65536))) := by
    calc 1440 * f * t
      _ = 1440 * f * (t % 65536 + 65536 * (t / 65536)) := by rw [Nat.mod_add_div]
      _ = 1440 * f * (t % 65536) + 1440 * (f * 65536) * (t / 65536) := by ring
      _ = _ := by rw [hk]; ring
  rw [hsplit, Nat.add_mul_div_left _ _ hrate]

/-- Settles O49: the wrapped and the unwrapped angle differ by whole turns. -/
theorem timeWrapIsSeamlessForExactFrequencies : Obligations.TimeWrapIsSeamlessForExactFrequencies := by
  intro cfg v t pm hrate hexact htime unwrapped
  obtain ⟨turns, hturns⟩ := phase_of_unwrapped (t := t) hrate hexact
  have hwrapped : v.time.toNat = t % 65536 := by rw [htime, BitVec.toNat_ofNat]
  have hangle : angleOf cfg v pm =
      ((1440 * v.frequency.toNat * (t % 65536) / cfg.sampleRate : Nat) : Int) + if v.pmEn then pm else 0 := by
    rw [← hwrapped]
    cases hen : v.pmEn <;> simp [angleOf, zext, hen]
  have hmod : angleOf cfg v pm % 1440 = unwrapped % 1440 := by
    simp only [unwrapped]
    omega
  exact ⟨hmod, sine_congr cfg hmod⟩

end Sys2Proof.Proofs.Datapath
end
